-- ==== Sys2Proof/Word.lean ====
section
/-! DEFINITION. The word types of TIRX (spec/00_scope.md R10, R11). -/

namespace Sys2Proof

/-- A protocol word: the normal and the inverted word are 24 bits (R10). -/
abbrev Word24 := BitVec 24

/-- A command word `CMD` of the command port: 32 bits (R10, R55). -/
abbrev CmdWord := BitVec 32

/-- `zext_24(v)` of an unsigned number, truncated to 24 bits (R11). -/
abbrev zext24 (n : Nat) : Word24 := BitVec.ofNat 24 n

end Sys2Proof
end

