-- ==== Sys2Proof/Syntax.lean ====
section
/-! DEFINITION. The six commands of TIRX (spec/opcode_table.json; spec/30_encoding.md R56 to R65), and the
vocabulary of the host that issues them (spec/49_host_contract.md). -/

namespace Sys2Proof

/-- One constructor per row of the opcode table. Every operand has exactly the width of its field and is an
unsigned number (R69). -/
inductive Instr where
  /-- `SETSTATE` (R57, R80). -/
  | setstate (temp : BitVec 5) (mode : BitVec 3) (fan : BitVec 3) (ton : BitVec 6) (toff : BitVec 6)
  /-- `ENCODE` (R58, R81). -/
  | encode
  /-- `ENCODE_SPECIAL` (R59, R82). -/
  | encodeSpecial (sc : BitVec 3)
  /-- `LOADSYM` (R64, R83). -/
  | loadsym (h : BitVec 1) (data : BitVec 24)
  /-- `TRANSMIT` (R65, R110). -/
  | transmit (r : BitVec 1) (len : BitVec 6)
  /-- `TRANSMIT_NH` (R65, R111). -/
  | transmitNh (len : BitVec 6)
deriving DecidableEq, Repr

/-- Why the decoder gives a word no command (R68, R171): the two reasons that need no operand. -/
inductive DecodeError where
  /-- `RESERVED_OPCODE`: `CMD[31:28]` is 0x0 or 0x7..0xF. -/
  | reservedOpcode
  /-- `RESERVED_BITS`: a must-be-0 bit of the format is 1. -/
  | reservedBits
deriving DecidableEq, Repr

/-- The special commands in the order of R67; the number of each is its `SC`. -/
inductive SpecialCmd where
  | powerOff | swing | airDirection | cleanAir | ledDisplay | turbo
deriving DecidableEq, Repr

/-- The operating modes, in the order of R61. -/
inductive Mode where
  | auto | cool | dry | heat | fan
deriving DecidableEq, Repr

/-- The fan speeds, in the order of R62 (`DEFAULT` is `dflt`). -/
inductive FanSpeed where
  | none | dflt | low | medium | high
deriving DecidableEq, Repr

/-- The operations of the host's Controller (R142 to R157). An argument is any number, in the encodings of R60 to R63,
and is corrected where it is out of range (R142, R145). -/
inductive HostOp where
  /-- Construction with initial values (R159, R193). -/
  | construct (temp mode fan ton toff : Int) (powered : Bool) (pin : Nat)
  | setTemperature (t : Int)
  | setMode (m : Int)
  | setFan (f : Int)
  | setTimerOn (i : Int)
  | setTimerOff (i : Int)
  | powerOn | powerOff | powerToggle
  | tempUp | tempDown | modeCycle | fanCycle | timerOnStep | timerOffStep
  | swing | airDirection | cleanAir | ledDisplay | turbo
deriving DecidableEq, Repr

end Sys2Proof
end

