-- ==== Sys2Proof/WellFormed.lean ====
section
/-! DEFINITION. Which commands have legal operand values (spec/30_encoding.md R65, R67, R68). -/

namespace Sys2Proof

/-- `SC` is one of the six special commands (R67; 6 and 7 are refused, R68). -/
abbrev legalSpecial (sc : BitVec 3) : Prop := sc.toNat ≤ 5

/-- `LEN` is 0..48 (R65; 49..63 is refused, R68). -/
abbrev legalLength (len : BitVec 6) : Prop := len.toNat ≤ 48

/-- A command whose operand values the spec gives a meaning. Every value of the `SETSTATE` fields is legal
(R68, R80), and so is every `LOADSYM` operand (R83). -/
def wellFormed : Instr → Bool
  | .setstate _ _ _ _ _ => true
  | .encode => true
  | .encodeSpecial sc => decide (legalSpecial sc)
  | .loadsym _ _ => true
  | .transmit _ len => decide (legalLength len)
  | .transmitNh len => decide (legalLength len)

/-- `wellFormed` as a proposition. -/
abbrev WellFormed (i : Instr) : Prop := wellFormed i = true

end Sys2Proof
end

