-- ==== Sys2Proof/Decode.lean ====
section
/-! DEFINITION. Decoding and encoding of command words (spec/30_encoding.md R55 to R65, R68). -/

namespace Sys2Proof

/-- `v[hi:lo]` of a command word, given `lo` and the field's width (R11). -/
def field (w : CmdWord) (lo width : Nat) : BitVec width := w.extractLsb' lo width

/-- The opcode `CMD[31:28]` (R56). -/
def opcode (w : CmdWord) : BitVec 4 := field w 28 4

/-- Accepts a format only where its must-be-0 field `z` is 0 (R57 to R65, R68). -/
def requireZero {n : Nat} (z : BitVec n) (i : Instr) : Except DecodeError Instr :=
  if z = 0 then .ok i else .error .reservedBits

/-- The command a word stands for, or the reason it stands for none. `RESERVED_OPCODE` comes before
`RESERVED_BITS` (R174); operand values are the commands' own concern (R82, R110, R111). -/
def decode (w : CmdWord) : Except DecodeError Instr :=
  match (opcode w).toNat with
  | 1 => requireZero (field w 23 5)
      (.setstate (field w 0 5) (field w 5 3) (field w 8 3) (field w 11 6) (field w 17 6))
  | 2 => requireZero (field w 0 28) .encode
  | 3 => requireZero (field w 3 25) (.encodeSpecial (field w 0 3))
  | 4 => requireZero (field w 25 3) (.loadsym (field w 24 1) (field w 0 24))
  | 5 => requireZero (field w 7 21) (.transmit (field w 6 1) (field w 0 6))
  | 6 => requireZero (field w 6 22) (.transmitNh (field w 0 6))
  | _ => .error .reservedOpcode

/-- A field of a command word with its lowest bit at `lo` and 0 everywhere else. -/
def place {n : Nat} (v : BitVec n) (lo : Nat) : CmdWord := v.setWidth 32 <<< lo

/-- The word of a command, laid out as R57 to R65 say. The must-be-0 fields are the bits no field covers. -/
def encode : Instr → CmdWord
  | .setstate temp mode fan ton toff =>
    place 0x1#4 28 ||| place toff 17 ||| place ton 11 ||| place fan 8 ||| place mode 5 ||| place temp 0
  | .encode => place 0x2#4 28
  | .encodeSpecial sc => place 0x3#4 28 ||| place sc 0
  | .loadsym h data => place 0x4#4 28 ||| place h 24 ||| place data 0
  | .transmit r len => place 0x5#4 28 ||| place r 6 ||| place len 0
  | .transmitNh len => place 0x6#4 28 ||| place len 0

/-- The command word whose low `nbits` bits are those of `w` and whose other bits are 0. -/
def tableWord (nbits w : Nat) : CmdWord := BitVec.ofNat 32 (w % 2 ^ nbits)

/-- The host's question: what the decoder reads from an instruction of `nbits` bits. Every command is one
32-bit word written whole to the port (R55), so there is no byte order, and more than 32 bits is no command. -/
def decodeTableWord (nbits w : Nat) : Option Instr :=
  if 32 < nbits then none
  else match decode (tableWord nbits w) with
    | .ok i => some i
    | .error _ => none

end Sys2Proof
end

