-- ==== Sys2Proof/Config.lean ====
section
/-! DEFINITION. What an implementation fixes: the configuration record `CFG` (spec/00_scope.md R7 to R9) and
the host's open choices (spec/49_host_contract.md, spec/92_eei_decisions.md D1, D22 to D26). No source gives a
value for any of them, so none is chosen here: `Config.hostCfg` below and `Config.given` (Machine/State.lean)
are uninterpreted. -/

namespace Sys2Proof

/-- `SYM_MAX`: the symbol-buffer length (R9). -/
abbrev symMax : Nat := 48

/-- The carrier frequency, 38 kHz nominal (R9, R122), in hertz. -/
def carrierHz : Nat := 38000

/-- The nominal carrier period in nanoseconds (R122). No rule forces
`CARRIER_HIGH_NS + CARRIER_LOW_NS` to equal it. -/
def nominalPeriodNs : Nat := 26316

/-- The configuration record as numbers (R8, R9). Whether each fits its width is the check `CHK_WIDTHS`. -/
structure Cfg where
  /-- `HDR`, bits 23..16 of every composed normal word. -/
  hdr : Nat
  /-- `TEMP_CODE[0..13]`. -/
  tempCode : Vector Nat 14
  /-- `NO_TEMP_CODE`. -/
  noTempCode : Nat
  /-- `MODE_CODE[0..4]`. -/
  modeCode : Vector Nat 5
  /-- `FAN_CODE[0..4]`. -/
  fanCode : Vector Nat 5
  /-- `TW`, the timer code width. -/
  tw : Nat
  /-- `TOFF_CODE[0..35]`. -/
  toffCode : Vector Nat 36
  /-- `TON_CODE[0..35]`; entry 0 is never read (R90). -/
  tonCode : Vector Nat 36
  /-- `NO_TON`. -/
  noTon : Nat
  /-- `T_SHIFT`. -/
  tShift : Nat
  /-- `M_SHIFT`. -/
  mShift : Nat
  /-- `F_SHIFT`. -/
  fShift : Nat
  /-- `OFF_SHIFT`. -/
  offShift : Nat
  /-- `ON_SHIFT`. -/
  onShift : Nat
  /-- `TMASK`. -/
  tmask : Nat
  /-- `TFLAG_POS`. -/
  tflagPos : Nat
  /-- `TON_ACTIVE`. -/
  tonActive : Nat
  /-- `SPECIAL[0..5]`. -/
  special : Vector Nat 6
  /-- `TEMP_FALLBACK`. -/
  tempFallback : Nat
  /-- `MODE_FALLBACK`. -/
  modeFallback : Nat
  /-- `FAN_FALLBACK`. -/
  fanFallback : Nat
  /-- `TOFF_FALLBACK`. -/
  toffFallback : Nat
  /-- `TON_FALLBACK`. -/
  tonFallback : Nat
  /-- `CARRIER_HIGH_NS`. -/
  carrierHighNs : Nat
  /-- `CARRIER_LOW_NS`. -/
  carrierLowNs : Nat
  /-- `HDR_MARK_CYC`. -/
  hdrMarkCyc : Nat
  /-- `HDR_SPACE_NS`. -/
  hdrSpaceNs : Nat
  /-- `BIT_MARK_CYC`. -/
  bitMarkCyc : Nat
  /-- `ONE_SPACE_NS`. -/
  oneSpaceNs : Nat
  /-- `ZERO_SPACE_NS`. -/
  zeroSpaceNs : Nat
  /-- `STOP_MARK_CYC`; 0 means no closing mark. -/
  stopMarkCyc : Nat
  /-- `TRAILER_SPACE_NS`. -/
  trailerSpaceNs : Nat
  /-- `GAP_NS`. -/
  gapNs : Nat
deriving DecidableEq, Repr

/-- The named checks of a configuration, in the order of R66. -/
inductive CfgCheck where
  | widths | tw | belowHdr | disjoint | onSpan | flagInMask | spaces | marks
deriving DecidableEq, Repr

/-- What the implicit power-off transmits, `OPEN HOST_IMPLICIT_OFF_TX` (R155, D26). -/
inductive ImplicitOffTx where
  | nothing | composedFrame | powerOffFrame
deriving DecidableEq, Repr

/-- The host's open choices. None is used by a rule of the block. -/
structure HostCfg where
  /-- `HOST_REPEAT`, per operation (R146, D22). -/
  hostRepeat : HostOp → Bool
  /-- `HOST_FAN_ON_MODE_CHANGE` (R143, D24). -/
  fanOnModeChange : Bool
  /-- `HOST_FAN_CYCLE_FROM_NONE` (R153, D24). -/
  fanCycleFromNone : FanSpeed
  /-- `HOST_OFF_WHEN_OFF` (R149, D26). -/
  offWhenOff : Bool
  /-- `HOST_IMPLICIT_OFF_TX` (R155, D26). -/
  implicitOffTx : ImplicitOffTx
  /-- `HOST_TX_AT_CONSTRUCTION` (R193, D26): whether construction with the power flag set transmits (log entry 29). -/
  txAtConstruction : Bool
  /-- Whether a temperature step is taken in FAN mode; R151 does not say (log entry 17). -/
  tempStepInFan : Bool
  /-- The mode an out-of-range mode argument is corrected to; R145 does not say which (log entry 27). -/
  modeOutOfRange : Int → Mode
  /-- The fan speed an out-of-range fan argument is corrected to (log entry 27). -/
  fanOutOfRange : Int → FanSpeed
  /-- The timer index an out-of-range timer argument is corrected to (log entry 27). -/
  timerOutOfRange : Int → Fin 36
  /-- `TIMER_DURATION` (R158, D23). That it counts whole minutes is the model's choice (log entry 31). -/
  timerDuration : Fin 36 → Nat
  /-- The fixed output pin of R159. -/
  defaultPin : Nat
  /-- The supported range of R159. -/
  pinSupported : Nat → Bool
  /-- `PORT_ADDRESS` (R41, D1), used by no rule. -/
  portAddress : Nat
  /-- Index 0 is "timer disabled" (R158). -/
  duration_zero : timerDuration 0 = 0
  /-- Index 35 is 24 hours (R158), here 1440 minutes (log entry 31). -/
  duration_max : timerDuration 35 = 1440
  /-- Durations are strictly increasing (D23). -/
  duration_increasing : ∀ i j : Fin 36, i < j → timerDuration i < timerDuration j

/-- A record that shows `HostCfg` is inhabited; nothing reads its values. -/
def HostCfg.witness : HostCfg where
  hostRepeat := fun _ => false
  fanOnModeChange := false
  fanCycleFromNone := .none
  offWhenOff := false
  implicitOffTx := .nothing
  txAtConstruction := false
  tempStepInFan := false
  modeOutOfRange := fun _ => .auto
  fanOutOfRange := fun _ => .none
  timerOutOfRange := fun _ => 0
  timerDuration := fun i => if i = 35 then 1440 else i.val
  defaultPin := 0
  pinSupported := fun _ => false
  portAddress := 0
  duration_zero := by decide
  duration_max := by decide
  duration_increasing := by
    intro i j h
    have hj : j.val ≤ 35 := by omega
    have hi : i ≠ 35 := by
      intro he; subst he; exact absurd h (by omega)
    simp only [hi, if_false]
    split <;> omega

/-- An uninterpreted member of `HostCfg`: Lean knows of it only its type. -/
opaque Config.pickHost [Inhabited HostCfg] : HostCfg

/-- The host's open choices: uninterpreted (`HostCfg.witness` only shows that there are such records). -/
def Config.hostCfg : HostCfg := @Config.pickHost ⟨HostCfg.witness⟩

end Sys2Proof
end

