-- ==== Sys2Proof/Machine/CfgChecks.lean ====
section
/-! DEFINITION. The checks a configuration must pass (spec/30_encoding.md R66). -/

namespace Sys2Proof.Machine

/-- Every entry of a table is below `2 ^ width`. -/
def tableFits {n : Nat} (width : Nat) (t : Vector Nat n) : Bool := t.toList.all fun v => decide (v < 2 ^ width)

/-- `CHK_WIDTHS` (R66): every table entry and pattern fits the width that R8 gives it. -/
def chkWidths (c : Cfg) : Bool :=
  decide (c.hdr < 2 ^ 8)
    && tableFits 4 c.tempCode && decide (c.noTempCode < 2 ^ 4) && decide (c.tempFallback < 2 ^ 4)
    && tableFits 2 c.modeCode && decide (c.modeFallback < 2 ^ 2)
    && tableFits 3 c.fanCode && decide (c.fanFallback < 2 ^ 3)
    && tableFits c.tw c.toffCode && decide (c.toffFallback < 2 ^ c.tw)
    && tableFits c.tw c.tonCode && decide (c.noTon < 2 ^ c.tw) && decide (c.tonFallback < 2 ^ c.tw)
    && decide (c.tmask < 2 ^ 24) && decide (c.tonActive < 2 ^ 24) && tableFits 24 c.special

/-- `CHK_TW` (R66). -/
def chkTw (c : Cfg) : Bool := decide (1 ≤ c.tw) && decide (c.tw ≤ 16)

/-- `CHK_BELOW_HDR` (R66): no field reaches the high byte. -/
def chkBelowHdr (c : Cfg) : Bool :=
  decide (c.tShift + 4 ≤ 16) && decide (c.mShift + 2 ≤ 16) && decide (c.fShift + 3 ≤ 16)
    && decide (c.offShift + c.tw ≤ 16)

/-- The spans `[a + m - 1 : a]` and `[b + n - 1 : b]` share no bit. -/
def spansDisjoint (a m b n : Nat) : Bool := decide (a + m ≤ b) || decide (b + n ≤ a)

/-- `CHK_DISJOINT` (R66): the four field spans are pairwise disjoint. -/
def chkDisjoint (c : Cfg) : Bool :=
  spansDisjoint c.tShift 4 c.mShift 2 && spansDisjoint c.tShift 4 c.fShift 3
    && spansDisjoint c.tShift 4 c.offShift c.tw && spansDisjoint c.mShift 2 c.fShift 3
    && spansDisjoint c.mShift 2 c.offShift c.tw && spansDisjoint c.fShift 3 c.offShift c.tw

/-- `CHK_ON_SPAN` (R66). -/
def chkOnSpan (c : Cfg) : Bool := decide (c.onShift + c.tw ≤ 24)

/-- `CHK_FLAG_IN_MASK` (R66); `TFLAG_POS` is a bit index 0..23 (R8). -/
def chkFlagInMask (c : Cfg) : Bool := decide (c.tflagPos < 24) && c.tmask.testBit c.tflagPos

/-- `CHK_SPACES` (R66). -/
def chkSpaces (c : Cfg) : Bool := decide (c.zeroSpaceNs < c.oneSpaceNs)

/-- `CHK_MARKS` (R66). -/
def chkMarks (c : Cfg) : Bool :=
  decide (1 ≤ c.hdrMarkCyc) && decide (1 ≤ c.bitMarkCyc) && decide (1 ≤ c.carrierHighNs)
    && decide (1 ≤ c.carrierLowNs)

/-- Whether a configuration passes one named check. -/
def passes (c : Cfg) : CfgCheck → Bool
  | .widths => chkWidths c
  | .tw => chkTw c
  | .belowHdr => chkBelowHdr c
  | .disjoint => chkDisjoint c
  | .onSpan => chkOnSpan c
  | .flagInMask => chkFlagInMask c
  | .spaces => chkSpaces c
  | .marks => chkMarks c

/-- The first check, in the order of R66, that a configuration fails. DESIGN CHOICE: R66 gives no order among
several failing checks (log entry 3). -/
def failedCheck (c : Cfg) : Option CfgCheck :=
  [CfgCheck.widths, .tw, .belowHdr, .disjoint, .onSpan, .flagInMask, .spaces, .marks].find? fun k => !passes c k

end Sys2Proof.Machine
end

