-- ==== Sys2Proof/Machine/State.lean ====
section
/-! DEFINITION. Everything the spec gives the machine to hold (spec/10_state.md), why a step can stop
(spec/60_exceptions.md R171, R172), and the state after reset (spec/10_state.md R36). -/

namespace Sys2Proof.Machine

/-- A configuration that passes every check of R66. A refused configuration gives the block no step at all
(R173), so a state exists only for one of these; `powerUp` (Ops.lean) is where the refusal is raised. -/
structure WfCfg where
  cfg : Cfg
  ok : failedCheck cfg = none
deriving DecidableEq, Repr

/-- A configuration that shows `WfCfg` is inhabited; nothing reads its values. -/
def WfCfg.witness : WfCfg where
  cfg := {
    hdr := 0, tempCode := Vector.replicate 14 0, noTempCode := 0, modeCode := Vector.replicate 5 0,
    fanCode := Vector.replicate 5 0, tw := 1, toffCode := Vector.replicate 36 0, tonCode := Vector.replicate 36 0,
    noTon := 0, tShift := 0, mShift := 4, fShift := 6, offShift := 9, onShift := 0, tmask := 1, tflagPos := 0,
    tonActive := 0, special := Vector.replicate 6 0, tempFallback := 0, modeFallback := 0, fanFallback := 0,
    toffFallback := 0, tonFallback := 0, carrierHighNs := 1, carrierLowNs := 1, hdrMarkCyc := 1, hdrSpaceNs := 0,
    bitMarkCyc := 1, oneSpaceNs := 1, zeroSpaceNs := 0, stopMarkCyc := 0, trailerSpaceNs := 0, gapNs := 0 }
  ok := by decide

/-- An uninterpreted member of `WfCfg`: Lean knows of it only its type. -/
opaque Config.pick [Inhabited WfCfg] : WfCfg

/-- The configuration of the block: uninterpreted, any record that passes R66 (R7, D7). -/
def Config.given : WfCfg := @Config.pick ⟨WfCfg.witness⟩

/-- A register or cell that is `UNSET` or holds a value. `UNSET` is the spec's own reset value for `NWORD`,
`IWORD` and `SYM` (R12, R23 to R25, R36). -/
inductive Reg (α : Type) where
  | unset
  | val (a : α)
deriving DecidableEq, Repr

/-- Whether a register or cell is `UNSET`. -/
def Reg.isUnset {α : Type} : Reg α → Bool
  | .unset => true
  | .val _ => false

/-- The register `STATE` (R21). -/
structure StateReg where
  temp : BitVec 5
  mode : BitVec 3
  fan : BitVec 3
  ton : BitVec 6
  toff : BitVec 6
deriving DecidableEq, Repr

/-- One waveform segment (R13). -/
inductive Segment where
  /-- `Mark(n)`: a burst of `n` carrier cycles. -/
  | mark (cycles : Nat)
  /-- `Space(d)`: `d` nanoseconds of idle output. -/
  | space (ns : Nat)
deriving DecidableEq, Repr

/-- A cell that can be `UNSET` (R172). -/
inductive CellName where
  | nword
  | iword
  | sym (k : Nat)
deriving DecidableEq, Repr

/-- The faults of the model, closed (R172). -/
inductive Fault where
  /-- `UnsetRead(cell)`, raised by `TRANSMIT` and `TRANSMIT_NH` for the lowest `UNSET` symbol among the first
  `LEN`, and by a host read of an `UNSET` `NWORD`, `IWORD` or `SYM` cell. Safe: nothing is claimed past it. -/
  | unsetRead (cell : CellName)
deriving DecidableEq, Repr

/-- The refusals of the model, closed (R171). All are safe: the model gives the word no meaning. -/
inductive Refusal where
  /-- An instruction whose meaning is not written; raised by no arm of `exec`. Safe. -/
  | notModelled (mnemonic : String)
  /-- `RESERVED_OPCODE`, raised by decode: `CMD[31:28]` is 0x0 or 0x7..0xF. Safe. -/
  | reservedOpcode
  /-- `RESERVED_BITS`, raised by decode for every format: a must-be-0 bit is 1. Safe. -/
  | reservedBits
  /-- `RESERVED_SPECIAL`, raised by `ENCODE_SPECIAL`: `SC` is 6 or 7. Safe. -/
  | reservedSpecial
  /-- `LEN_RANGE`, raised by `TRANSMIT` and `TRANSMIT_NH`: `LEN` is over 48. Safe. -/
  | lenRange
  /-- `CONFIG(check)`, raised by `powerUp` before the first step (R66, R173). Safe. -/
  | config (check : CfgCheck)
deriving DecidableEq, Repr

/-- The refusal or fault mark (R171, R172, R190). -/
inductive Mark where
  | refused (r : Refusal)
  | faulted (f : Fault)
deriving DecidableEq, Repr

/-- What the host can read (R35). `TXQ` and `CFG` cannot be read, so they have no selector. -/
inductive ReadSel where
  | state
  | nword
  | iword
  | sym (k : Fin 48)
  | busy
deriving DecidableEq, Repr

/-- The value a read of the read view gives (R35). -/
inductive ReadValue where
  | state (v : StateReg)
  | word (v : Word24)
  | symbol (b : Bool)
  | flag (b : Bool)
deriving DecidableEq, Repr

/-- One act of the host or of the world outside the block (log entry 5). -/
inductive HostAct where
  /-- The host lets the block's agents move for one step. -/
  | pass
  /-- The host writes a command word to the port (R55). -/
  | write (w : CmdWord)
  /-- The host waits until its transmission has completed (R26). -/
  | await
  /-- An operation of the Controller returns to its caller, after its transmission has completed (R161). -/
  | ret (o : HostOp)
  /-- The host reads the read view (R35). -/
  | read (sel : ReadSel)
  /-- The host writes its own flag `HOST_IE` (R28). -/
  | setIE (b : Bool)
  /-- An interrupt of the host becomes pending (R176). -/
  | irq
  /-- The block is reset (R190, R191). -/
  | reset
  /-- An operation of the Controller (R146 to R157). -/
  | op (o : HostOp)
deriving DecidableEq, Repr

/-- The host's own state, the source's ApplianceState (R140). No rule of the block reads it (R22). -/
structure HostState where
  temperature : Nat
  mode : Mode
  fanSpeed : FanSpeed
  timerOn : Fin 36
  timerOff : Fin 36
  powered : Bool
  sleepEnabled : Bool
  outputPin : Nat
deriving DecidableEq, Repr

/-- The defaults at construction, "temperature 20, mode AUTO, fan DEFAULT, timers 0, power off" (R140); the pin
is the default pin (R159). -/
def HostState.initial : HostState where
  temperature := 20
  mode := .auto
  fanSpeed := .dflt
  timerOn := 0
  timerOff := 0
  powered := false
  sleepEnabled := false
  outputPin := Config.hostCfg.defaultPin

/-- The machine: the block, its port, and the host that drives it. -/
structure State where
  /-- `CFG` (R7, R32): fixed, written by no step (log entry 1). -/
  cfg : WfCfg
  /-- `STATE` (R21). -/
  stateReg : StateReg
  /-- `NWORD` (R23). -/
  nword : Reg Word24
  /-- `IWORD` (R24). -/
  iword : Reg Word24
  /-- `SYM[0..47]` (R25). -/
  sym : Vector (Reg Bool) 48
  /-- `BUSY` (R26); `INT_INHIBIT` is `State.intInhibit` (R28). -/
  busy : Bool
  /-- `TXQ` (R27). -/
  txq : List Segment
  /-- `WAVE`, oldest first (R31); `IR_OUT` is `State.irOut` (R29). -/
  wave : List Segment
  /-- The refusal or fault mark (R171, R172). -/
  mark : Option Mark
  /-- The command word the host holds on the port, if any (R26, R55). -/
  port : Option CmdWord
  /-- `HOST_IE`, the host's own flag, never written by the block (R28). -/
  hostIE : Bool
  /-- How many interrupts are pending in the host (R176). -/
  irqPending : Nat
  /-- How many interrupts the host has taken; the model's own history. -/
  irqTaken : Nat
  /-- The Controller's state (R140). -/
  host : HostState
  /-- What the host and the world do next; the model's own (log entry 5). -/
  inputs : List HostAct
  /-- The values the host has read, oldest first; the model's own (log entry 14). -/
  reads : List ReadValue
  /-- The operations that have returned, each with its result if it has one, oldest first; the model's own
  (log entry 26). -/
  returns : List (HostOp × Option Nat)
deriving DecidableEq, Repr

/-- The block right after reset with a given configuration, in every field of R36, beside an idle host. -/
def State.resetWith (c : WfCfg) : State where
  cfg := c
  stateReg := { temp := 20, mode := 0, fan := 1, ton := 0, toff := 0 }
  nword := .unset
  iword := .unset
  sym := Vector.replicate 48 .unset
  busy := false
  txq := []
  wave := []
  mark := none
  port := none
  hostIE := true
  irqPending := 0
  irqTaken := 0
  host := HostState.initial
  inputs := []
  reads := []
  returns := []

/-- The machine right after reset (R36, R190). -/
def State.reset : State := State.resetWith Config.given

end Sys2Proof.Machine
end

