-- ==== Sys2Proof/Machine/Flags.lean ====
section
/-! DEFINITION. The block's one flag `BUSY`, what follows from it, and the derived `TACT`
(spec/10_state.md R26, R28, R30, R34). -/

namespace Sys2Proof.Machine

/-- `INT_INHIBIT`, equal to `BUSY` at every instant (R28). -/
def State.intInhibit (s : State) : Bool := s.busy

/-- The host's interrupts are taken only while `HOST_IE = 1` and `INT_INHIBIT = 0` (R28, R176). -/
def State.interruptible (s : State) : Bool := s.hostIE && !s.intInhibit

/-- An interrupt is pending and the host can take it (R176). -/
def irqReady (s : State) : Bool := s.interruptible && decide (0 < s.irqPending)

/-- `TACT`, a timer is active: either index is not 0 (R30). -/
def timerActive (ton toff : BitVec 6) : Bool := ton != 0 || toff != 0

/-- `BUSY <- 1` (R110, R111). -/
def setBusy (s : State) : State := { s with busy := true }

/-- `BUSY <- 0` (R126). -/
def clearBusy (s : State) : State := { s with busy := false }

end Sys2Proof.Machine
end

