-- ==== Sys2Proof/Machine/Operands.lean ====
section
/-! DEFINITION. How an operand or a `STATE` field selects an entry of the configuration tables, and the fallback
where it selects none (spec/30_encoding.md R60 to R63, R67, R70; spec/40_encoder.md R85 to R90). Codes are
unsigned numbers; a well-formed configuration keeps each within its width (R66). -/

namespace Sys2Proof.Machine

/-- The entry of a table at an index, or the fallback outside it. -/
def lookup {n : Nat} (t : Vector Nat n) (fallback k : Nat) : Nat := if h : k < n then t[k] else fallback

/-- `MODE = FAN` (R61). -/
def modeFan : BitVec 3 := 4

/-- `TCode(S)`, the temperature code (R85, R86). -/
def tCode (c : Cfg) (r : StateReg) : Nat :=
  if r.mode = modeFan then c.noTempCode
  else if 17 ≤ r.temp.toNat then lookup c.tempCode c.tempFallback (r.temp.toNat - 17)
  else c.tempFallback

/-- `MCode(m)` (R87). -/
def mCode (c : Cfg) (m : BitVec 3) : Nat := lookup c.modeCode c.modeFallback m.toNat

/-- `FCode(f)` (R88). -/
def fCode (c : Cfg) (f : BitVec 3) : Nat := lookup c.fanCode c.fanFallback f.toNat

/-- `OCode(t)` (R89). -/
def oCode (c : Cfg) (t : BitVec 6) : Nat := lookup c.toffCode c.toffFallback t.toNat

/-- `OnCode(t)` (R90). -/
def onCode (c : Cfg) (t : BitVec 6) : Nat :=
  if t = 0 then c.noTon else lookup c.tonCode c.tonFallback t.toNat

/-- `SPECIAL[SC]`, for an `SC` that names a special command (R67, R70). -/
def specialConst (c : Cfg) (sc : BitVec 3) : Option Nat := c.special[sc.toNat]?

end Sys2Proof.Machine
end

