-- ==== Sys2Proof/Machine/Ops.lean ====
section
/-! DEFINITION. The operations every meaning shares: how a step stops (the block has no exception and no trap,
R170, R175: a refusal or a fault is all there is), the register writes, the symbol buffer, the read view, the
port, power-up and reset (spec/10_state.md, spec/60_exceptions.md R171 to R175, spec/70_reset_and_hazards.md). -/

namespace Sys2Proof.Machine

/-- The outcome of a step of this machine. -/
abbrev Outcome := Host.Outcome State Fault Refusal

/-- `raise Refuse(reason)` (R171). -/
def refuse (r : Refusal) : Outcome := .refused r

/-- `raise UnsetRead(cell)`: the spec's own fault, "a transmit command whose first `LEN` symbols include an `UNSET` cell,
or a host read of `NWORD`, `IWORD` or a `SYM` cell that is `UNSET`, faults" (R172; R12, R35, R110, R111). -/
def raiseUnset {α : Type} (cell : CellName) : Except Fault α := .error (.unsetRead cell)

/-- The name the model's refusal has for the decoder's reason (R171). -/
def refusalOf : DecodeError → Refusal
  | .reservedOpcode => .reservedOpcode
  | .reservedBits => .reservedBits

/-- What a marked machine answers: its mark again, at every step (R171, R172, R175). -/
def markOutcome : Mark → Outcome
  | .refused r => .refused r
  | .faulted f => .fault f

/-- The state a step leaves behind. A refusal or a fault sets the mark and changes nothing else (R171, R172). -/
def settle (s : State) : Outcome → State
  | .next t => t
  | .fault f => { s with mark := some (.faulted f) }
  | .refused r => { s with mark := some (.refused r) }

/-- Writes the five `STATE` fields together (R47, R80). -/
def writeState (r : StateReg) (s : State) : State := { s with stateReg := r }

/-- The 48 symbols of two words, most significant bit first, interleaved in 8-bit groups, the normal word's group
first (R42, R43, R92): symbol `16 g + b` is `N[23 - 8 g - b]`, symbol `16 g + 8 + b` is `I[23 - 8 g - b]`. -/
def expand (n i : Word24) : Vector Bool 48 :=
  Vector.ofFn fun k =>
    let g := k.val / 16
    let b := k.val % 16
    if b < 8 then n.getLsbD (23 - 8 * g - b) else i.getLsbD (23 - 8 * g - (b - 8))

/-- Writes `NWORD`, `IWORD` and all 48 symbols together (R47, R81, R82). -/
def writeWords (n i : Word24) (s : State) : State :=
  { s with nword := .val n, iword := .val i, sym := (expand n i).map .val }

/-- The buffer with half `h` written from `data`, `DATA[23]` first (R64, R83); the other half is kept. -/
def halfWritten (h : BitVec 1) (data : BitVec 24) (sym : Vector (Reg Bool) 48) : Vector (Reg Bool) 48 :=
  Vector.ofFn fun k => if k.val / 24 = h.toNat then .val (data.getLsbD (23 - k.val % 24)) else sym[k]

/-- Writes one half of `SYM` (R83). -/
def writeHalf (h : BitVec 1) (data : BitVec 24) (s : State) : State :=
  { s with sym := halfWritten h data s.sym }

/-- Reads cells in order, the first of them being `SYM[k]`: their values, or `UnsetRead` for the lowest `UNSET`
one (R110, R172). -/
def readCells : Nat → List (Reg Bool) → Except Fault (List Bool)
  | _, [] => .ok []
  | k, .unset :: _ => raiseUnset (.sym k)
  | k, .val b :: cells =>
    match readCells (k + 1) cells with
    | .ok bs => .ok (b :: bs)
    | .error f => .error f

/-- Reads `SYM[0..len-1]` (R110, R111). -/
def readSymbols (len : Nat) (s : State) : Except Fault (List Bool) := readCells 0 (s.sym.toList.take len)

/-- Loads `TXQ` whole and sets `BUSY`, together (R27, R47, R110, R111). -/
def loadTx (q : List Segment) (s : State) : State := setBusy { s with txq := q }

/-- Reads a cell of the read view (R35). -/
def readReg {α : Type} (cell : CellName) (wrap : α → ReadValue) : Reg α → Except Fault ReadValue
  | .unset => raiseUnset cell
  | .val a => .ok (wrap a)

/-- The read view: `STATE`, `NWORD`, `IWORD`, `SYM[k]` and `BUSY`, at any time, with no side effect (R35, R48). -/
def readView (s : State) : ReadSel → Except Fault ReadValue
  | .state => .ok (.state s.stateReg)
  | .nword => readReg .nword .word s.nword
  | .iword => readReg .iword .word s.iword
  | .sym k => readReg (.sym k.val) .symbol s.sym[k]
  | .busy => .ok (.flag s.busy)

/-- The block takes the command word off the port: a command is consumed whole when accepted (R53). -/
def takePort (s : State) : State := { s with port := none }

/-- The host puts a command word on the port (R55). -/
def putPort (w : CmdWord) (s : State) : State := { s with port := some w }

/-- The host is done with the first of its inputs. -/
def setInputs (rest : List HostAct) (s : State) : State := { s with inputs := rest }

/-- The host notes a value it has read (log entry 14). -/
def noteRead (v : ReadValue) (s : State) : State := { s with reads := s.reads ++ [v] }

/-- An operation of the Controller returns, with its result if it has one (R161, log entry 26). -/
def noteReturn (o : HostOp) (v : Option Nat) (s : State) : State := { s with returns := s.returns ++ [(o, v)] }

/-- The host writes its own interrupt-enable flag (R28). -/
def setHostIE (b : Bool) (s : State) : State := { s with hostIE := b }

/-- An interrupt of the host becomes pending; it stays so until taken (R176). -/
def pendIrq (s : State) : State := { s with irqPending := s.irqPending + 1 }

/-- The host takes one pending interrupt. The block's state is not touched (R176). -/
def takeIrq (s : State) : State := { s with irqPending := s.irqPending - 1, irqTaken := s.irqTaken + 1 }

/-- The Controller stores its new state (R146). -/
def setHost (h : HostState) (s : State) : State := { s with host := h }

/-- Power-up with a configuration: refused before any command runs when a check of R66 fails (R173), else the
state of R36. -/
def powerUp (c : Cfg) : Outcome :=
  match h : failedCheck c with
  | some k => refuse (.config k)
  | none => .next (State.resetWith ⟨c, h⟩)

/-- A reset of the block between steps. Every piece of the block's state takes its value of R36, but a reset that
ends a transmission keeps in `WAVE` the segments already emitted (R190, R191). `CFG` is fixed (R32); the host,
the word it holds on the port and its inputs are not the block's (log entry 9). -/
def resetBlock (s : State) : State :=
  { State.resetWith s.cfg with
    wave := if s.busy then s.wave else []
    port := s.port, hostIE := s.hostIE, irqPending := s.irqPending, irqTaken := s.irqTaken
    host := s.host, inputs := s.inputs, reads := s.reads, returns := s.returns }

end Sys2Proof.Machine
end

