-- ==== Sys2Proof/Machine/Controller.lean ====
section
/-! DEFINITION. The host's Controller, which decides the commands the block gets (spec/49_host_contract.md R140 to
R161). The spec's scope leaves it out of the block (spec/00_scope.md R6) and records it as the contract of the
host; it is modelled as the host agent's part of the machine (log entry 15). An operation answers the new host
state and the commands it issues, in order. -/

namespace Sys2Proof.Machine

/-- The `MODE` encoding (R61). -/
def modeCode : Mode → BitVec 3
  | .auto => 0
  | .cool => 1
  | .dry => 2
  | .heat => 3
  | .fan => 4

/-- The `FAN` encoding (R62). -/
def fanSpeedCode : FanSpeed → BitVec 3
  | .none => 0
  | .dflt => 1
  | .low => 2
  | .medium => 3
  | .high => 4

/-- The `SC` encoding (R67). -/
def specialCode : SpecialCmd → BitVec 3
  | .powerOff => 0
  | .swing => 1
  | .airDirection => 2
  | .cleanAir => 3
  | .ledDisplay => 4
  | .turbo => 5

/-- `LEN = 48`, a full frame. -/
def fullLength : BitVec 6 := 48

/-- `R` as a bit. -/
def repeatBit (r : Bool) : BitVec 1 := BitVec.ofBool r

/-- The expansion of `sendstate R` (R73). -/
def sendState (r : Bool) : List Instr := [.encode, .transmit (repeatBit r) fullLength]

/-- The expansion of `sendspec SC, R` (R73). -/
def sendSpecial (sc : SpecialCmd) (r : Bool) : List Instr :=
  [.encodeSpecial (specialCode sc), .transmit (repeatBit r) fullLength]

/-- `setstate` with the whole host state (R140, R146). -/
def setStateOf (h : HostState) : Instr :=
  .setstate (BitVec.ofNat 5 h.temperature) (modeCode h.mode) (fanSpeedCode h.fanSpeed)
    (BitVec.ofNat 6 h.timerOn.val) (BitVec.ofNat 6 h.timerOff.val)

/-- The composed frame of a host state: `setstate`, then `sendstate R` (R146, R148). -/
def composedFrame (h : HostState) (r : Bool) : List Instr := setStateOf h :: sendState r

/-- The temperature clamped to [17,30] (R142). -/
def clampTemp (t : Int) : Nat := if t < 17 then 17 else if 30 < t then 30 else t.toNat

/-- A mode argument, in the encoding of R61; out of range it is corrected, to what is open (R145, log entry 27). -/
def modeArg (p : HostCfg) (n : Int) : Mode :=
  if n = 0 then .auto
  else if n = 1 then .cool
  else if n = 2 then .dry
  else if n = 3 then .heat
  else if n = 4 then .fan
  else p.modeOutOfRange n

/-- A fan-speed argument, in the encoding of R62; out of range it is corrected, to what is open (R145, log entry 27). -/
def fanArg (p : HostCfg) (n : Int) : FanSpeed :=
  if n = 0 then .none
  else if n = 1 then .dflt
  else if n = 2 then .low
  else if n = 3 then .medium
  else if n = 4 then .high
  else p.fanOutOfRange n

/-- A timer argument, an index 0..35 (R63); out of range it is corrected, to what is open (R145, log entry 27). -/
def timerArg (p : HostCfg) (n : Int) : Fin 36 :=
  if h : n.toNat < 36 ∧ 0 ≤ n then ⟨n.toNat, h.1⟩ else p.timerOutOfRange n

/-- The off-timer after the collision rule (R144). -/
def resolveOff (on off : Fin 36) : Fin 36 :=
  if on = off ∧ off ≠ 0 then (if off = 35 then off - 1 else off + 1) else off

/-- The next of the 36 durations, from the last back to disabled (R154). -/
def nextTimer (i : Fin 36) : Fin 36 := if i = 35 then 0 else i + 1

/-- The mode cycle (R152). -/
def nextMode : Mode → Mode
  | .auto => .cool
  | .cool => .dry
  | .dry => .heat
  | .heat => .fan
  | .fan => .auto

/-- The fan-speed cycle; the successor of NONE is open (R153). -/
def nextFan (p : HostCfg) : FanSpeed → FanSpeed
  | .dflt => .low
  | .low => .medium
  | .medium => .high
  | .high => .dflt
  | .none => p.fanCycleFromNone

/-- The modes in which the fan setter always yields NONE (R143). -/
def fanForced : Mode → Bool
  | .auto => true
  | .dry => true
  | .cool => false
  | .heat => false
  | .fan => false

/-- A host operation's result: the new host state and the commands issued. -/
abbrev HostResult := HostState × List Instr

/-- A mutator has stored its value: a powered unit transmits, an unpowered one is silent (R146, R147). -/
def mutated (r : Bool) (h : HostState) : HostResult := (h, if h.powered then composedFrame h r else [])

/-- The fan after a mode change; whether entering AUTO or DRY forces NONE is open (R143). -/
def fanAfterMode (p : HostCfg) (h : HostState) (m : Mode) : FanSpeed :=
  if p.fanOnModeChange ∧ fanForced m ∧ m ≠ h.mode then .none else h.fanSpeed

/-- A mode change (R146, R152). -/
def changeMode (p : HostCfg) (r : Bool) (m : Mode) (h : HostState) : HostResult :=
  mutated r { h with mode := m, fanSpeed := fanAfterMode p h m }

/-- The fan setter (R143). -/
def changeFan (r : Bool) (f : FanSpeed) (h : HostState) : HostResult :=
  mutated r { h with fanSpeed := if fanForced h.mode then .none else f }

/-- The fan-speed cycle, a no-op outside COOL, HEAT and FAN (R153). -/
def cycleFan (p : HostCfg) (r : Bool) (h : HostState) : HostResult :=
  if fanForced h.mode then (h, []) else mutated r { h with fanSpeed := nextFan p h.fanSpeed }

/-- A temperature set or step (R142, R151). -/
def changeTemp (r : Bool) (t : Int) (h : HostState) : HostResult := mutated r { h with temperature := clampTemp t }

/-- A temperature step by `d`; in FAN mode it is taken or not as the host's open choice says (R151). -/
def stepTemp (p : HostCfg) (r : Bool) (d : Int) (h : HostState) : HostResult :=
  if h.mode = .fan ∧ ¬ p.tempStepInFan then (h, []) else changeTemp r (h.temperature + d) h

/-- What the implicit power-off transmits: open (R155, D26). -/
def implicitOffCmds (p : HostCfg) (r : Bool) (h : HostState) : List Instr :=
  match p.implicitOffTx with
  | .nothing => []
  | .composedFrame => composedFrame h r
  | .powerOffFrame => sendSpecial .powerOff r

/-- Setting the on-timer back to disabled while the off-timer is disabled too triggers the implicit power-off, powered
or not (R155); "back" is read as from a nonzero index (log entry 16). -/
def triggersImplicitOff (i : Fin 36) (h : HostState) : Bool := i = 0 ∧ h.timerOn ≠ 0 ∧ h.timerOff = 0

/-- Setting the on-timer (R144, R146, R155). A nonzero value on an unpowered unit arms it: the composed frame is
transmitted and `powered` stays as it is. -/
def changeTimerOn (p : HostCfg) (r : Bool) (i : Fin 36) (h : HostState) : HostResult :=
  let h' := { h with timerOn := i, timerOff := resolveOff i h.timerOff }
  if i ≠ 0 ∧ ¬ h.powered then (h', composedFrame h' r)
  else if triggersImplicitOff i h then
    let off := { h' with powered := false, timerOn := 0, timerOff := 0 }
    (off, implicitOffCmds p r off)
  else mutated r h'

/-- Setting the off-timer (R144, R146). -/
def changeTimerOff (r : Bool) (i : Fin 36) (h : HostState) : HostResult :=
  mutated r { h with timerOff := resolveOff h.timerOn i }

/-- Power on (R148). -/
def hostPowerOn (r : Bool) (h : HostState) : HostResult :=
  let h' := { h with powered := true }
  (h', composedFrame h' r)

/-- Power off zeroes both timers (R149); on an unpowered unit it transmits as the open choice says. -/
def hostPowerOff (p : HostCfg) (r : Bool) (h : HostState) : HostResult :=
  ({ h with powered := false, timerOn := 0, timerOff := 0 },
    if h.powered ∨ p.offWhenOff then sendSpecial .powerOff r else [])

/-- A toggle command: only on a powered unit (R156). -/
def toggle (sc : SpecialCmd) (r : Bool) (h : HostState) : HostResult :=
  (h, if h.powered then sendSpecial sc r else [])

/-- The output pin, the default where the asked one is out of range (R159). -/
def choosePin (p : HostCfg) (pin : Nat) : Nat := if p.pinSupported pin then pin else p.defaultPin

/-- Construction: each argument validated (R140, R145, R159). Whether it transmits with the power flag set is open (R193);
that the frame would then be the composed one, and that construction with the flag clear never transmits, a nonzero
on-timer included, are the model's choices (log entry 29). -/
def construct (p : HostCfg) (r : Bool) (temp m f ton toff : Int) (powered : Bool) (pin : Nat) : HostResult :=
  let h : HostState := {
    temperature := clampTemp temp, mode := modeArg p m, fanSpeed := fanArg p f, timerOn := timerArg p ton
    timerOff := resolveOff (timerArg p ton) (timerArg p toff), powered := powered, sleepEnabled := false
    outputPin := choosePin p pin }
  (h, if powered ∧ p.txAtConstruction then composedFrame h r else [])

/-- One operation of the Controller (R146 to R157). Construction may come at any place and replaces the host's state
(log entry 28). The power toggle is power on or power off (R150), with that operation's `R` (log entry 30). -/
def hostOperate (p : HostCfg) (o : HostOp) (h : HostState) : HostResult :=
  let r := p.hostRepeat o
  match o with
  | .construct t m f ton toff powered pin => construct p r t m f ton toff powered pin
  | .setTemperature t => changeTemp r t h
  | .setMode m => changeMode p r (modeArg p m) h
  | .setFan f => changeFan r (fanArg p f) h
  | .setTimerOn i => changeTimerOn p r (timerArg p i) h
  | .setTimerOff i => changeTimerOff r (timerArg p i) h
  | .powerOn => hostPowerOn r h
  | .powerOff => hostPowerOff p r h
  | .powerToggle =>
    if h.powered then hostPowerOff p (p.hostRepeat .powerOff) h else hostPowerOn (p.hostRepeat .powerOn) h
  | .tempUp => stepTemp p r 1 h
  | .tempDown => stepTemp p r (-1) h
  | .modeCycle => changeMode p r (nextMode h.mode) h
  | .fanCycle => cycleFan p r h
  | .timerOnStep => changeTimerOn p r (nextTimer h.timerOn) h
  | .timerOffStep => changeTimerOff r (nextTimer h.timerOff) h
  | .swing => toggle .swing r h
  | .airDirection => toggle .airDirection r h
  | .cleanAir => toggle .cleanAir r h
  | .ledDisplay => (h, sendSpecial .ledDisplay r)
  | .turbo => toggle .turbo r h

/-- What an operation returns to its caller: the steps return the resulting temperature (R151), the toggles
return nothing (R156); for the others the spec states no value (log entry 26). -/
def hostReturns (o : HostOp) (after : HostState) : Option Nat :=
  match o with
  | .tempUp => some after.temperature
  | .tempDown => some after.temperature
  | _ => none

/-- The inputs an operation turns into: its command words in order, then its return, which waits for its transmission
(R146, R161). -/
def hostWrites (o : HostOp) (cmds : List Instr) : List HostAct :=
  cmds.map (fun i => HostAct.write (encode i)) ++ [.ret o]

end Sys2Proof.Machine
end

