-- ==== Sys2Proof/Machine/Encoder.lean ====
section
/-! DEFINITION. The StateEncoder: the two words (spec/40_encoder.md R84 to R93) and the meanings of `SETSTATE`,
`ENCODE`, `ENCODE_SPECIAL` and `LOADSYM` (R80 to R83). -/

namespace Sys2Proof.Machine

/-- `NormalWord(STATE)` (R84). -/
def normalWord (c : Cfg) (r : StateReg) : Word24 :=
  (zext24 c.hdr <<< 16)
    ||| (zext24 (tCode c r) <<< c.tShift)
    ||| (zext24 (mCode c r.mode) <<< c.mShift)
    ||| (zext24 (fCode c r.fan) <<< c.fShift)
    ||| (zext24 (oCode c r.toff) <<< c.offShift)

/-- Step 1 of R91: the complement outside `TMASK`, 0 inside. -/
def complementOutside (c : Cfg) (n : Word24) : Word24 := ~~~n &&& ~~~zext24 c.tmask

/-- Step 2 of R91: the flag bit copied from the normal word. -/
def copyFlag (c : Cfg) (n i0 : Word24) : Word24 :=
  let fb : Word24 := 1#24 <<< c.tflagPos
  (i0 &&& ~~~fb) ||| (n &&& fb)

/-- The four steps of R91 for an active timer: complement outside the mask, flag, `TON_ACTIVE`, timer-on code. -/
def timerWord (c : Cfg) (n : Word24) (ton : BitVec 6) : Word24 :=
  copyFlag c n (complementOutside c n) ||| zext24 c.tonActive ||| (zext24 (onCode c ton) <<< c.onShift)

/-- `InvertedWord(N, TON, TOFF)` (R91). -/
def invertedWord (c : Cfg) (n : Word24) (ton toff : BitVec 6) : Word24 :=
  if timerActive ton toff then timerWord c n ton else ~~~n

/-- `SETSTATE` (R80): the five fields as written, no clamp. -/
def execSetstate (temp : BitVec 5) (mode fan : BitVec 3) (ton toff : BitVec 6) (s : State) : Outcome :=
  .next (writeState { temp := temp, mode := mode, fan := fan, ton := ton, toff := toff } s)

/-- `ENCODE` (R81). -/
def execEncode (s : State) : Outcome :=
  let n := normalWord s.cfg.cfg s.stateReg
  .next (writeWords n (invertedWord s.cfg.cfg n s.stateReg.ton s.stateReg.toff) s)

/-- `ENCODE_SPECIAL` (R82, R93): the constant and its complement, whatever `STATE` holds. -/
def execEncodeSpecial (sc : BitVec 3) (s : State) : Outcome :=
  match specialConst s.cfg.cfg sc with
  | some v => .next (writeWords (zext24 v) (~~~zext24 v) s)
  | none => refuse .reservedSpecial

/-- `LOADSYM` (R83). -/
def execLoadsym (h : BitVec 1) (data : BitVec 24) (s : State) : Outcome := .next (writeHalf h data s)

end Sys2Proof.Machine
end

