-- ==== Sys2Proof/Machine/Wave.lean ====
section
/-! DEFINITION. The segment lists of a transmission, their durations and what the pin shows
(spec/41_transmitter.md R112 to R123, R128; spec/70_reset_and_hazards.md R198). -/

namespace Sys2Proof.Machine

/-- The header (R113). -/
def headerSegs (c : Cfg) : List Segment := [.mark c.hdrMarkCyc, .space c.hdrSpaceNs]

/-- The space after a symbol: longer for 1 (R114). -/
def symbolSpaceNs (c : Cfg) (b : Bool) : Nat := if b then c.oneSpaceNs else c.zeroSpaceNs

/-- One symbol: a mark, then the space that gives its value (R114). -/
def symbolSegs (c : Cfg) (b : Bool) : List Segment := [.mark c.bitMarkCyc, .space (symbolSpaceNs c b)]

/-- `Bits(SYM, L)`, for the symbols read (R114). -/
def bitSegs (c : Cfg) (bs : List Bool) : List Segment := bs.flatMap (symbolSegs c)

/-- The closing mark, where the configuration has one (R115). -/
def stopSegs (c : Cfg) : List Segment := if 0 < c.stopMarkCyc then [.mark c.stopMarkCyc] else []

/-- The trailer (R115). -/
def trailerSegs (c : Cfg) : List Segment := stopSegs c ++ [.space c.trailerSpaceNs]

/-- `Frame(SYM, L, header)`, for the symbols read (R112, R117, R118). -/
def frame (c : Cfg) (bs : List Bool) (header : Bool) : List Segment :=
  (if header then headerSegs c else []) ++ bitSegs c bs ++ trailerSegs c

/-- What `TRANSMIT` loads: the frame, or with repetition the frame, the gap and the frame again (R110, R116). -/
def transmitQueue (c : Cfg) (bs : List Bool) (again : Bool) : List Segment :=
  if again then frame c bs true ++ [.space c.gapNs] ++ frame c bs true else frame c bs true

/-- The carrier period `P` in nanoseconds (R128). -/
def periodNs (c : Cfg) : Nat := c.carrierHighNs + c.carrierLowNs

/-- `dur(seg)` in nanoseconds (R120). -/
def durNs (c : Cfg) : Segment → Nat
  | .mark n => n * periodNs c
  | .space d => d

/-- The duration of a list of segments (R128). -/
def totalNs (c : Cfg) (q : List Segment) : Nat := (q.map (durNs c)).sum

/-- The timing table's header (R198). -/
def headerNs (c : Cfg) : Nat := c.hdrMarkCyc * periodNs c + c.hdrSpaceNs

/-- The timing table's trailer (R198). -/
def trailerNs (c : Cfg) : Nat := c.stopMarkCyc * periodNs c + c.trailerSpaceNs

/-- The timing table's frame of `len` symbols of which `ones` are 1 (R128, R198). -/
def frameNs (c : Cfg) (header : Bool) (len ones : Nat) : Nat :=
  (if header then headerNs c else 0) + len * (c.bitMarkCyc * periodNs c) + ones * c.oneSpaceNs
    + (len - ones) * c.zeroSpaceNs + trailerNs c

/-- One interval of the pin: its level (`true` is 1, the active level, R29) and its length. -/
structure PinInterval where
  high : Bool
  ns : Nat
deriving DecidableEq, Repr

/-- One carrier cycle: an active pulse, then an idle pulse (R13, R120). -/
def carrierCycle (c : Cfg) : List PinInterval := [⟨true, c.carrierHighNs⟩, ⟨false, c.carrierLowNs⟩]

/-- `n` carrier cycles. -/
def carrierCycles (c : Cfg) : Nat → List PinInterval
  | 0 => []
  | n + 1 => carrierCycle c ++ carrierCycles c n

/-- What one segment is on the pin (R121). -/
def pinSegment (c : Cfg) : Segment → List PinInterval
  | .mark n => carrierCycles c n
  | .space d => [⟨false, d⟩]

/-- What a list of segments is on the pin (R121). -/
def pinWave (c : Cfg) (q : List Segment) : List PinInterval := q.flatMap (pinSegment c)

/-- An interval put before a merged list, joined to its first interval where the levels agree. -/
def joinInterval (p : PinInterval) : List PinInterval → List PinInterval
  | [] => [p]
  | q :: qs => if p.high = q.high then ⟨p.high, p.ns + q.ns⟩ :: qs else p :: q :: qs

/-- Adjacent intervals of the same level merged (R123). -/
def mergePins (ps : List PinInterval) : List PinInterval := ps.foldr joinInterval []

/-- Two waveforms are the same (R123). -/
def sameWaveform (c : Cfg) (a b : List Segment) : Prop := mergePins (pinWave c a) = mergePins (pinWave c b)

/-- The level a pin is left at, idle where nothing was driven (R29). -/
def endLevel : List PinInterval → Bool
  | [] => false
  | [p] => p.high
  | _ :: ps => endLevel ps

/-- The pin's waveform since reset (R29, R121). -/
def State.pins (s : State) : List PinInterval := pinWave s.cfg.cfg s.wave

/-- `IR_OUT` between two steps (R29). -/
def State.irOut (s : State) : Bool := endLevel s.pins

end Sys2Proof.Machine
end

