-- ==== Sys2Proof/Machine/Transmitter.lean ====
section
/-! DEFINITION. The PulseTransmitter: the meanings of `TRANSMIT` and `TRANSMIT_NH` (spec/41_transmitter.md R110,
R111) and the transmitter's own steps (R125, R126). That a command is accepted only while `BUSY = 0` (R26) is the
gate of the block's port, `blockStep` in Agents.lean. -/

namespace Sys2Proof.Machine

/-- The shared course of the two transmit commands: `LEN_RANGE`, then `UnsetRead`, then the load (R174). -/
def startTx (len : BitVec 6) (queue : List Bool → List Segment) (s : State) : Outcome :=
  if len.toNat ≤ symMax then
    match readSymbols len.toNat s with
    | .ok bs => .next (loadTx (queue bs) s)
    | .error f => .fault f
  else refuse .lenRange

/-- `TRANSMIT` (R110). -/
def execTransmit (r : BitVec 1) (len : BitVec 6) (s : State) : Outcome :=
  startTx len (fun bs => transmitQueue s.cfg.cfg bs (r == 1)) s

/-- `TRANSMIT_NH` (R111). -/
def execTransmitNh (len : BitVec 6) (s : State) : Outcome :=
  startTx len (fun bs => frame s.cfg.cfg bs false) s

/-- The emit step: the head of `TXQ` goes to `WAVE` (R125). -/
def emitSegment (seg : Segment) (rest : List Segment) (s : State) : State :=
  { s with wave := s.wave ++ [seg], txq := rest }

/-- The transmitter's step while `BUSY = 1`: emit, or with an empty queue complete (R125, R126). -/
def transmitterStep (s : State) : State :=
  match s.txq with
  | seg :: rest => emitSegment seg rest s
  | [] => clearBusy s

end Sys2Proof.Machine
end

