-- ==== Sys2Proof/Machine/Dispatch.lean ====
section
/-! DEFINITION. One arm per command of the opcode table. -/

namespace Sys2Proof.Machine

def exec (i : Instr) (s : State) : Host.Outcome State Fault Refusal :=
  match i with
  | .setstate temp mode fan ton toff => Sys2Proof.Machine.execSetstate temp mode fan ton toff s
  | .encode => Sys2Proof.Machine.execEncode s
  | .encodeSpecial sc => Sys2Proof.Machine.execEncodeSpecial sc s
  | .loadsym h data => Sys2Proof.Machine.execLoadsym h data s
  | .transmit r len => Sys2Proof.Machine.execTransmit r len s
  | .transmitNh len => Sys2Proof.Machine.execTransmitNh len s

end Sys2Proof.Machine
end

