-- ==== Sys2Proof/Machine/Agents.lean ====
section
/-! DEFINITION. Which agent moves and what it does in one step: the block (spec/10_state.md R20, R26;
spec/41_transmitter.md R125, R126), and the host and the world outside (R28, R35, R55, R176, R191). -/

namespace Sys2Proof.Machine

/-- The block accepts the command word on the port: it decodes and runs it (R55, R171). -/
def accept (w : CmdWord) (s : State) : Outcome :=
  match decode w with
  | .ok i => exec i (takePort s)
  | .error e => refuse (refusalOf e)

/-- One step in which the host does nothing new. While `BUSY = 1` only the transmitter moves, so a command on the
port is held (R26); with `BUSY = 0` the host takes a pending interrupt it can take (R176), else the block accepts
the command on the port (R55), else nothing is enabled and the block waits for the host (R190, log entry 6). -/
def blockStep (s : State) : Outcome :=
  if s.busy then .next (transmitterStep s)
  else if irqReady s then .next (takeIrq s)
  else match s.port with
    | some w => accept w s
    | none => .next s

/-- Whether something comes before any new act of the host: a command of its own that is held, on which it is blocked
(R26, R49), or an interrupt it takes (R176, log entry 11). -/
def hostHeld (s : State) : Bool := s.port.isSome || irqReady s

/-- The host issues a command word. With `BUSY = 0` the block accepts it in this step (R20, R55); with `BUSY = 1` it is
held on the port (R26). -/
def hostWrite (w : CmdWord) (rest : List HostAct) (s : State) : Outcome :=
  if hostHeld s then blockStep s
  else if s.busy then .next (putPort w (setInputs rest s))
  else accept w (setInputs rest s)

/-- A read of the read view, also while `BUSY = 1`; it does not touch the block (R35, R48). It does not overtake a
command the host has issued before it (R49). -/
def hostRead (sel : ReadSel) (rest : List HostAct) (s : State) : Outcome :=
  if hostHeld s then blockStep s
  else match readView s sel with
    | .ok v => .next (noteRead v (setInputs rest s))
    | .error f => .fault f

/-- The host's other acts come only with `BUSY = 0`: the host has no step while its transmission goes on
(R20, R26, R161). -/
def whenFree (t s : State) : Outcome := if s.busy || hostHeld s then blockStep s else .next t

/-- An operation of the Controller: it stores its state and issues its commands (R146, R161). -/
def hostOp (o : HostOp) (rest : List HostAct) (s : State) : Outcome :=
  let res := hostOperate Config.hostCfg o s.host
  whenFree (setHost res.1 (setInputs (hostWrites o res.2 ++ rest) s)) s

/-- The return of an operation, with its result (R151, R161). -/
def hostRet (o : HostOp) (rest : List HostAct) (s : State) : Outcome :=
  whenFree (noteReturn o (hostReturns o s.host) (setInputs rest s)) s

/-- One act of the host or of the world, with the inputs that follow it. -/
def hostStep (a : HostAct) (rest : List HostAct) (s : State) : Outcome :=
  match a with
  | .pass => blockStep (setInputs rest s)
  | .write w => hostWrite w rest s
  | .await => whenFree (setInputs rest s) s
  | .ret o => hostRet o rest s
  | .read sel => hostRead sel rest s
  | .setIE b => whenFree (setHostIE b (setInputs rest s)) s
  | .irq => .next (pendIrq (setInputs rest s))
  | .reset => .next (resetBlock (setInputs rest s))
  | .op o => hostOp o rest s

/-- One step of the unmarked machine: the first input, or the block alone. -/
def agentStep (s : State) : Outcome :=
  match s.inputs with
  | [] => blockStep s
  | a :: rest => hostStep a rest s

/-- One step. A refusal or a fault has ended the run: a marked machine answers its mark (R171, R172, R175). -/
def machineStep (s : State) : Outcome :=
  match s.mark with
  | some m => markOutcome m
  | none => agentStep s

/-- The machine ready to accept the word `w` at its next step: the host holds `w` on the port, nothing is being
sent, no interrupt is pending, no other input comes first and no mark stands. -/
def presentWord (w : CmdWord) (s : State) : State :=
  { s with port := some w, busy := false, txq := [], irqPending := 0, inputs := [], mark := none }

end Sys2Proof.Machine
end

