-- ==== Sys2Proof/Machine/Step.lean ====
section
/-! DEFINITION. The step of the machine, and the placing of a word where the next step takes it. -/

namespace Sys2Proof.Machine

/-- One step of one agent (Agents.lean). -/
def step (s : State) : Host.Outcome State Fault Refusal := machineStep s

/-- The state in which the next step accepts the command word whose low `nbits` bits are those of `w`: the block
fetches nothing (R33, R53), so this stands for the host's write (log entry 5). -/
def State.withFetchWord (s : State) (nbits w : Nat) : State := presentWord (tableWord nbits w) s

end Sys2Proof.Machine
end

