-- ==== Sys2Proof/Safety.lean ====
section
/-! DEFINITION. What a good state and a finished run are. -/

namespace Sys2Proof.Machine

/-- The state after one step, marks included (R171, R172). -/
def after (s : State) : State := settle s (step s)

/-- `n` steps with the marks kept: a refusal or a fault ends the run, its state stays (R175). -/
def runAfter : Nat → State → State
  | 0, s => s
  | n + 1, s => runAfter n (after s)

/-- No agent has an enabled step: nothing is being sent, no command is held, no interrupt can be taken and no
input is left (95_test_vectors.md section 4, "End state"). -/
def quiescent (s : State) : Bool := !s.busy && s.port.isNone && !irqReady s && s.inputs.isEmpty

/-- The host has nothing left to do, or its next act waits for the block: for its held command, for its transmission or
behind an interrupt (R20, R26, R49, R161, R176). The acts of the world (an interrupt becomes pending, a reset) and `pass`
wait for nothing. -/
def hostWaits (s : State) : Bool :=
  match s.inputs with
  | [] => true
  | .pass :: _ => false
  | .write _ :: _ => hostHeld s
  | .await :: _ => s.busy || hostHeld s
  | .ret _ :: _ => s.busy || hostHeld s
  | .read _ :: _ => hostHeld s
  | .setIE _ :: _ => s.busy || hostHeld s
  | .irq :: _ => false
  | .reset :: _ => false
  | .op _ :: _ => s.busy || hostHeld s

/-- The block is ready for the command word `w` held on the port: nothing is being sent, no interrupt comes first, the
host waits and the run has not ended (R26, R55, R175, R176). -/
def Ready (w : CmdWord) (s : State) : Prop :=
  s.mark = none ∧ hostWaits s = true ∧ s.busy = false ∧ irqReady s = false ∧ s.port = some w

/-- The word the block can be asked to accept next: the one held on the port, or with none there the one the host
issues now (R26, R55). -/
def Offered (w : CmdWord) (s : State) : Prop :=
  s.port = some w ∨ (s.port = none ∧ ∃ rest, s.inputs = .write w :: rest)

/-- The host can do its next act at once: no transmission, no held command, no interrupt to take (R20, R26, R176). -/
def HostFree (s : State) : Prop := s.busy = false ∧ s.port = none ∧ irqReady s = false

/-- A segment is at least one carrier cycle, if it is a mark (R66 `CHK_MARKS`, R115). -/
def segmentOk : Segment → Bool
  | .mark n => decide (0 < n)
  | .space _ => true

/-- `TXQ` is empty unless `BUSY = 1`, and what is left of it ends with the trailer space (R27, R115, R126). -/
def TxqOk (s : State) : Prop :=
  s.txq ≠ [] → s.busy = true ∧ s.txq.getLast? = some (.space s.cfg.cfg.trailerSpaceNs)

/-- `NWORD` and `IWORD` are written together (R23, R24, R47). -/
def WordsTogether (s : State) : Prop := s.nword.isUnset = s.iword.isUnset

/-- Once the encoder has written the words, no symbol cell is `UNSET` (R25, R81 to R83). -/
def SymbolsFollowWords (s : State) : Prop := s.nword.isUnset = false → ∀ k : Fin 48, s.sym[k].isUnset = false

/-- The cells of one half of `SYM` are `UNSET` together (R46, R83). -/
def HalvesTogether (s : State) : Prop :=
  ∀ j k : Fin 48, j.val / 24 = k.val / 24 → s.sym[j].isUnset = s.sym[k].isUnset

/-- No mark of the waveform is empty (R66, R115). -/
def SegmentsOk (s : State) : Prop := (s.wave ++ s.txq).all segmentOk = true

/-- The invariant of the block. -/
def Inv (s : State) : Prop :=
  TxqOk s ∧ WordsTogether s ∧ SymbolsFollowWords s ∧ HalvesTogether s ∧ SegmentsOk s

/-- What the Controller keeps: the temperature in [17,30], and the timers never equal but for 0 (R142, R144). -/
def HostOk (h : HostState) : Prop :=
  17 ≤ h.temperature ∧ h.temperature ≤ 30 ∧ (h.timerOn = h.timerOff → h.timerOn = 0)

end Sys2Proof.Machine
end

