-- ==== Sys2Proof/Certificates/Slice0/Obligations.lean ====
section
/-! DEFINITION. The statements for the provers. `Ready w s` (Safety.lean) says that the machine accepts the command
word `w` held on the port at its next step: `BUSY = 0`, no interrupt is taken first, the host waits (`hostWaits`) and no
mark stands. `HostFree s` says that the host's next act does not wait. Where a next state is written as the old state
with some fields replaced, every other field is unchanged: that is the command's frame. -/

open Sys2Proof Sys2Proof.Machine

/-! ### Encoding -/

/-- Decoding the word of a command gives the command back, for every command and every operand (R56 to R65). -/
def Obligations.EncodeThenDecodeGivesTheCommand : Prop := ∀ i : Instr, decode (encode i) = .ok i

/-- A word that decodes is the word of the command it decodes to: no bit outside the fields is ignored. -/
def Obligations.DecodedWordIsTheCommandsEncoding : Prop :=
  ∀ (w : CmdWord) (i : Instr), decode w = .ok i → encode i = w

/-- The decoder's refusals: by opcode first, else by a must-be-0 bit, with the must-be-0 bits of each format as a
mask of the word (R57 to R59, R64, R65, R68, R174). -/
def Obligations.DecodeRefusesExactlyTheReservedWords : Prop :=
  ∀ w : CmdWord,
    (decode w = .error .reservedOpcode ↔ w.toNat / 2 ^ 28 = 0 ∨ 7 ≤ w.toNat / 2 ^ 28) ∧
    (decode w = .error .reservedBits ↔
      (w.toNat / 2 ^ 28 = 1 ∧ w &&& 0x0F800000 ≠ 0) ∨ (w.toNat / 2 ^ 28 = 2 ∧ w &&& 0x0FFFFFFF ≠ 0) ∨
      (w.toNat / 2 ^ 28 = 3 ∧ w &&& 0x0FFFFFF8 ≠ 0) ∨ (w.toNat / 2 ^ 28 = 4 ∧ w &&& 0x0E000000 ≠ 0) ∨
      (w.toNat / 2 ^ 28 = 5 ∧ w &&& 0x0FFFFF80 ≠ 0) ∨ (w.toNat / 2 ^ 28 = 6 ∧ w &&& 0x0FFFFFC0 ≠ 0))

/-- Six words of the spec's examples (R80 to R83, R110, R111) decode to the commands they are examples of. -/
def Obligations.SpecExampleWordsDecode : Prop :=
  decode 0x10000114 = .ok (.setstate 20 0 1 0 0) ∧ decode 0x20000000 = .ok .encode ∧
  decode 0x30000000 = .ok (.encodeSpecial 0) ∧ decode 0x40C33C01 = .ok (.loadsym 0 0xC33C01) ∧
  decode 0x50000030 = .ok (.transmit 0 48) ∧ decode 0x60000000 = .ok (.transmitNh 0)

/-! ### The step -/

/-- The block accepts a command with `BUSY = 0` and no interrupt first, and the step then runs it. Held on the port: while
the host waits, on the state with the port emptied (R53, R55), and when the host lets the block move (`pass`, off the
list). With the port free: in the step in which the host issues it (R20, R55). The input list is the model's choice (log
entry 5). -/
def Obligations.StepRunsTheDecodedCommand : Prop :=
  ∀ (s : State) (w : CmdWord) (i : Instr),
    s.mark = none → s.busy = false → irqReady s = false → decode w = .ok i →
    (s.port = some w → hostWaits s = true → step s = exec i { s with port := none }) ∧
    (s.port = some w → ∀ rest, s.inputs = .pass :: rest → step s = exec i { s with port := none, inputs := rest }) ∧
    (s.port = none → ∀ rest, s.inputs = .write w :: rest → step s = exec i { s with inputs := rest })

/-- A ready or a freshly issued word that decodes to no command is refused with the decoder's reason (R68, R171). -/
def Obligations.StepRefusesAReservedWord : Prop :=
  ∀ (s : State) (w : CmdWord),
    Ready w s ∨ (s.mark = none ∧ HostFree s ∧ ∃ rest, s.inputs = .write w :: rest) →
    (decode w = .error .reservedOpcode → step s = .refused .reservedOpcode) ∧
    (decode w = .error .reservedBits → step s = .refused .reservedBits)

/-- A refusal sets the refusal mark and a fault the fault mark, each changes nothing else, and the mark is kept: the
machine is in the same state after any number of further steps, and every further step answers the same
(R171, R172, R175; that a marked machine goes on answering its mark is the model's choice, log entry 8). -/
def Obligations.MarksAreSetAloneAndKept : Prop :=
  ∀ s : State,
    (∀ r, step s = .refused r → after s = { s with mark := some (.refused r) } ∧
      step (after s) = .refused r ∧ ∀ n, runAfter n (after s) = after s) ∧
    (∀ f, step s = .fault f → after s = { s with mark := some (.faulted f) } ∧
      step (after s) = .fault f ∧ ∀ n, runAfter n (after s) = after s)

/-- The only faults of a step are `UnsetRead`s of cells that are `UNSET`, and they come from an accepted transmit
command or a host read (R172). -/
def Obligations.FaultsAreUnsetReads : Prop :=
  ∀ (s : State) (cell : CellName), s.mark = none → step s = .fault (.unsetRead cell) →
    (match cell with
      | .nword => s.nword = .unset ∧ ∃ rest, s.inputs = .read .nword :: rest
      | .iword => s.iword = .unset ∧ ∃ rest, s.inputs = .read .iword :: rest
      | .sym k => ∃ h : k < 48, s.sym[k] = .unset ∧
          ((∃ rest, s.inputs = .read (.sym ⟨k, h⟩) :: rest) ∨
            ∃ w, Offered w s ∧ s.busy = false ∧
              ((∃ r len, decode w = .ok (.transmit r len) ∧ k < len.toNat) ∨
                (∃ len, decode w = .ok (.transmitNh len) ∧ k < len.toNat))))

/-- A command is refused exactly when its operand value is one the spec refuses, and never for another reason than
the two of R171 that a decoded command can raise. -/
def Obligations.CommandsRefuseExactlyIllFormedOperands : Prop :=
  ∀ (i : Instr) (s : State),
    (¬ WellFormed i ↔ exec i s = .refused .reservedSpecial ∨ exec i s = .refused .lenRange) ∧
    (∀ r, exec i s = .refused r →
      (r = .reservedSpecial ∧ ∃ sc, i = .encodeSpecial sc) ∨
      (r = .lenRange ∧ ((∃ b len, i = .transmit b len) ∨ ∃ len, i = .transmitNh len)))

/-! ### SETSTATE -/

/-- `SETSTATE` completes on every operand and every state: the five fields as written, nothing else (R80). -/
def Obligations.SetstateWritesTheFiveFieldsAlone : Prop :=
  ∀ (temp : BitVec 5) (mode fan : BitVec 3) (ton toff : BitVec 6) (s : State),
    exec (.setstate temp mode fan ton toff) s =
      .next { s with stateReg := { temp := temp, mode := mode, fan := fan, ton := ton, toff := toff } }

/-- R80 on the command word: any word of opcode 1 at a ready machine. -/
def Obligations.SetstateWordOutcome : Prop :=
  ∀ (s : State) (w : CmdWord), Ready w s → w.extractLsb' 28 4 = 1 →
    step s =
      if w.extractLsb' 23 5 = 0 then
        .next { s with
          port := none
          stateReg := {
            temp := w.extractLsb' 0 5, mode := w.extractLsb' 5 3, fan := w.extractLsb' 8 3
            ton := w.extractLsb' 11 6, toff := w.extractLsb' 17 6 } }
      else .refused .reservedBits

/-! ### The normal word -/

/-- The temperature code (R85, R86): `NO_TEMP_CODE` in FAN mode whatever `TEMP` holds, the table's entry for 17..30,
the fallback for 0..16 and 31. -/
def Obligations.TemperatureCodeRule : Prop :=
  ∀ (c : Cfg) (r : StateReg),
    (r.mode = 4 → tCode c r = c.noTempCode) ∧
    (∀ k : Fin 14, r.mode ≠ 4 → r.temp.toNat = 17 + k.val → tCode c r = c.tempCode[k]) ∧
    (r.mode ≠ 4 → r.temp.toNat < 17 ∨ 30 < r.temp.toNat → tCode c r = c.tempFallback)

/-- The mode, fan, timer-off and timer-on codes, with their fallbacks (R87 to R90). `TON_CODE[0]` is never read. -/
def Obligations.ModeFanAndTimerCodeRules : Prop :=
  ∀ c : Cfg,
    (∀ (m : BitVec 3) (k : Fin 5), m.toNat = k.val → mCode c m = c.modeCode[k]) ∧
    (∀ m : BitVec 3, 5 ≤ m.toNat → mCode c m = c.modeFallback) ∧
    (∀ (f : BitVec 3) (k : Fin 5), f.toNat = k.val → fCode c f = c.fanCode[k]) ∧
    (∀ f : BitVec 3, 5 ≤ f.toNat → fCode c f = c.fanFallback) ∧
    (∀ (t : BitVec 6) (k : Fin 36), t.toNat = k.val → oCode c t = c.toffCode[k]) ∧
    (∀ t : BitVec 6, 36 ≤ t.toNat → oCode c t = c.toffFallback) ∧
    onCode c 0 = c.noTon ∧
    (∀ (t : BitVec 6) (k : Fin 36), k.val ≠ 0 → t.toNat = k.val → onCode c t = c.tonCode[k]) ∧
    (∀ t : BitVec 6, 36 ≤ t.toNat → onCode c t = c.tonFallback)

/-- R84 bit by bit, under a well-formed configuration: the union loses nothing, so each field's span of the normal
word is its code, the high byte is `HDR`, and every other bit is 0. -/
def Obligations.NormalWordSpansHoldTheirCodes : Prop :=
  ∀ (w : WfCfg) (r : StateReg),
    (∀ k, k < 8 → (normalWord w.cfg r).getLsbD (16 + k) = w.cfg.hdr.testBit k) ∧
    (∀ k, k < 4 → (normalWord w.cfg r).getLsbD (w.cfg.tShift + k) = (tCode w.cfg r).testBit k) ∧
    (∀ k, k < 2 → (normalWord w.cfg r).getLsbD (w.cfg.mShift + k) = (mCode w.cfg r.mode).testBit k) ∧
    (∀ k, k < 3 → (normalWord w.cfg r).getLsbD (w.cfg.fShift + k) = (fCode w.cfg r.fan).testBit k) ∧
    (∀ k, k < w.cfg.tw → (normalWord w.cfg r).getLsbD (w.cfg.offShift + k) = (oCode w.cfg r.toff).testBit k) ∧
    (∀ k, k < 16 → ¬ (w.cfg.tShift ≤ k ∧ k < w.cfg.tShift + 4) → ¬ (w.cfg.mShift ≤ k ∧ k < w.cfg.mShift + 2) →
      ¬ (w.cfg.fShift ≤ k ∧ k < w.cfg.fShift + 3) → ¬ (w.cfg.offShift ≤ k ∧ k < w.cfg.offShift + w.cfg.tw) →
      (normalWord w.cfg r).getLsbD k = false)

/-- Under a well-formed configuration every code fits the width of its field (R66 `CHK_WIDTHS`, R70). -/
def Obligations.CodesFitTheirFields : Prop :=
  ∀ (w : WfCfg) (r : StateReg),
    tCode w.cfg r < 2 ^ 4 ∧ mCode w.cfg r.mode < 2 ^ 2 ∧ fCode w.cfg r.fan < 2 ^ 3 ∧
    oCode w.cfg r.toff < 2 ^ w.cfg.tw ∧ onCode w.cfg r.ton < 2 ^ w.cfg.tw

/-! ### The inverted word -/

/-- R91: the complement with both timers disabled; otherwise, bit by bit, the flag bit copied from the normal word,
every other bit complemented outside the mask and 0 inside, then the on-timer-active pattern and the timer-on code
ORed in. -/
def Obligations.InvertedWordBits : Prop :=
  ∀ (w : WfCfg) (n : Word24) (ton toff : BitVec 6),
    (ton = 0 ∧ toff = 0 → invertedWord w.cfg n ton toff = n ^^^ 0xFFFFFF) ∧
    (ton ≠ 0 ∨ toff ≠ 0 → ∀ k, k < 24 →
      (invertedWord w.cfg n ton toff).getLsbD k =
        ((if k = w.cfg.tflagPos then n.getLsbD k else !n.getLsbD k && !w.cfg.tmask.testBit k)
          || w.cfg.tonActive.testBit k
          || (decide (w.cfg.onShift ≤ k) && (onCode w.cfg ton).testBit (k - w.cfg.onShift))))

/-! ### ENCODE -/

/-- `ENCODE` completes on every state. It writes `NWORD`, `IWORD` and all 48 symbols by the index formula of R92, and
nothing else (R81, R92). -/
def Obligations.EncodeWritesWordsAndSymbols : Prop :=
  ∀ s : State, ∃ t, exec .encode s = .next t ∧
    let n := normalWord s.cfg.cfg s.stateReg
    let i := invertedWord s.cfg.cfg n s.stateReg.ton s.stateReg.toff
    t.nword = .val n ∧ t.iword = .val i ∧
    (∀ (g : Fin 3) (b : Fin 8),
      t.sym[16 * g.val + b.val]? = some (.val (n.getLsbD (23 - 8 * g.val - b.val))) ∧
      t.sym[16 * g.val + 8 + b.val]? = some (.val (i.getLsbD (23 - 8 * g.val - b.val)))) ∧
    t = { s with nword := t.nword, iword := t.iword, sym := t.sym }

/-- R81 on the command word: any word of opcode 2 at a ready machine. -/
def Obligations.EncodeWordOutcome : Prop :=
  ∀ (s : State) (w : CmdWord), Ready w s → w.extractLsb' 28 4 = 2 →
    step s =
      if w.extractLsb' 0 28 = 0 then
        let n := normalWord s.cfg.cfg s.stateReg
        let i := invertedWord s.cfg.cfg n s.stateReg.ton s.stateReg.toff
        .next { s with port := none, nword := .val n, iword := .val i, sym := (expand n i).map .val }
      else .refused .reservedBits

/-- The encoder is deterministic: what `ENCODE` writes depends only on `STATE` and `CFG`, and what `ENCODE_SPECIAL`
writes only on `SC` and `CFG` (R95). -/
def Obligations.EncoderWritesDependOnlyOnItsInputs : Prop :=
  ∀ s₁ s₂ t₁ t₂ : State, s₁.cfg = s₂.cfg →
    (s₁.stateReg = s₂.stateReg → exec .encode s₁ = .next t₁ → exec .encode s₂ = .next t₂ →
      t₁.nword = t₂.nword ∧ t₁.iword = t₂.iword ∧ t₁.sym = t₂.sym) ∧
    (∀ sc, exec (.encodeSpecial sc) s₁ = .next t₁ → exec (.encodeSpecial sc) s₂ = .next t₂ →
      t₁.nword = t₂.nword ∧ t₁.iword = t₂.iword ∧ t₁.sym = t₂.sym)

/-- R96: with both timers disabled after `ENCODE`, and after every special command, each 8-bit group of the inverted
word is the complement of the normal word's, and exactly 24 of the 48 symbols are 1; with a timer active the
inverted bit is the complement outside `TMASK`, `TON_ACTIVE` and the on-code span. -/
def Obligations.ComplementLaw : Prop :=
  (∀ (i : Instr) (s t : State), exec i s = .next t →
    (i = .encode ∧ s.stateReg.ton = 0 ∧ s.stateReg.toff = 0) ∨ (∃ sc, i = .encodeSpecial sc) →
    (∀ (g : Fin 3) (b : Fin 8), ∃ x : Bool,
      t.sym[16 * g.val + b.val]? = some (.val x) ∧ t.sym[16 * g.val + 8 + b.val]? = some (.val (!x))) ∧
    t.sym.toList.count (.val true) = 24) ∧
  (∀ (w : WfCfg) (n : Word24) (ton toff : BitVec 6) (k : Nat), k < 24 → ton ≠ 0 ∨ toff ≠ 0 →
    w.cfg.tmask.testBit k = false → w.cfg.tonActive.testBit k = false →
    ¬ (w.cfg.onShift ≤ k ∧ k < w.cfg.onShift + w.cfg.tw) →
    (invertedWord w.cfg n ton toff).getLsbD k = !n.getLsbD k)

/-! ### ENCODE_SPECIAL -/

/-- `ENCODE_SPECIAL` completes for the six special commands: the constant, its complement whatever `STATE` holds, and
all 48 symbols, and nothing else (R82, R93). -/
def Obligations.SpecialWritesConstantAndComplement : Prop :=
  ∀ (sc : BitVec 3) (k : Fin 6) (s : State), sc.toNat = k.val →
    ∃ t, exec (.encodeSpecial sc) s = .next t ∧
      let n : Word24 := BitVec.ofNat 24 s.cfg.cfg.special[k]
      let i : Word24 := n ^^^ 0xFFFFFF
      t.nword = .val n ∧ t.iword = .val i ∧
      (∀ (g : Fin 3) (b : Fin 8),
        t.sym[16 * g.val + b.val]? = some (.val (n.getLsbD (23 - 8 * g.val - b.val))) ∧
        t.sym[16 * g.val + 8 + b.val]? = some (.val (i.getLsbD (23 - 8 * g.val - b.val)))) ∧
      t = { s with nword := t.nword, iword := t.iword, sym := t.sym }

/-- R82 on the command word: any word of opcode 3 at a ready machine, the must-be-0 bits checked before `SC`. -/
def Obligations.SpecialWordOutcome : Prop :=
  ∀ (s : State) (w : CmdWord), Ready w s → w.extractLsb' 28 4 = 3 →
    (w.extractLsb' 3 25 ≠ 0 → step s = .refused .reservedBits) ∧
    (w.extractLsb' 3 25 = 0 → 5 < (w.extractLsb' 0 3).toNat → step s = .refused .reservedSpecial) ∧
    (∀ k : Fin 6, w.extractLsb' 3 25 = 0 → (w.extractLsb' 0 3).toNat = k.val →
      let n : Word24 := BitVec.ofNat 24 s.cfg.cfg.special[k]
      step s = .next { s with port := none, nword := .val n, iword := .val (~~~n), sym := (expand n (~~~n)).map .val })

/-! ### LOADSYM -/

/-- `LOADSYM` completes on every operand and every state: 24 cells of one half, `DATA[23]` first, and nothing else:
the other half and both word registers are as they were (R83). -/
def Obligations.LoadsymWritesOneHalf : Prop :=
  ∀ (h : BitVec 1) (data : BitVec 24) (s : State), ∃ t, exec (.loadsym h data) s = .next t ∧
    (∀ k : Fin 24, t.sym[24 * h.toNat + k.val]? = some (.val (data.getLsbD (23 - k.val)))) ∧
    (∀ k : Fin 24, t.sym[24 * (1 - h.toNat) + k.val]? = s.sym[24 * (1 - h.toNat) + k.val]?) ∧
    t = { s with sym := t.sym }

/-- R83 on the command word: any word of opcode 4 at a ready machine. -/
def Obligations.LoadsymWordOutcome : Prop :=
  ∀ (s : State) (w : CmdWord), Ready w s → w.extractLsb' 28 4 = 4 →
    (w.extractLsb' 25 3 ≠ 0 → step s = .refused .reservedBits) ∧
    (w.extractLsb' 25 3 = 0 → ∃ t, step s = .next t ∧
      (∀ k : Fin 48, t.sym[k] =
        if k.val / 24 = (w.extractLsb' 24 1).toNat then .val (w.getLsbD (23 - k.val % 24)) else s.sym[k]) ∧
      t = { s with port := none, sym := t.sym })

/-- Loading back what `ENCODE` wrote changes nothing: `{N[23:16], I[23:16], N[15:8]}` into half 0 and
`{I[15:8], N[7:0], I[7:0]}` into half 1 (R45). -/
def Obligations.LoadsymReproducesTheEncodersSymbols : Prop :=
  ∀ (s t : State) (n i : Word24), exec .encode s = .next t → t.nword = .val n → t.iword = .val i →
    exec (.loadsym 0 (n.extractLsb' 16 8 ++ i.extractLsb' 16 8 ++ n.extractLsb' 8 8)) t = .next t ∧
    exec (.loadsym 1 (i.extractLsb' 8 8 ++ n.extractLsb' 0 8 ++ i.extractLsb' 0 8)) t = .next t

/-! ### TRANSMIT and TRANSMIT_NH -/

/-- `TRANSMIT` completes for every `LEN` up to 48 whose symbols are all written: it loads header, payload and trailer,
with repetition twice with the gap between, and sets `BUSY`; nothing else changes (R110, R112 to R116). -/
def Obligations.TransmitLoadsItsSegments : Prop :=
  ∀ (r : BitVec 1) (len : BitVec 6) (bs : List Bool) (s : State),
    len.toNat ≤ 48 → s.sym.toList.take len.toNat = bs.map .val →
    let c := s.cfg.cfg
    let f : List Segment :=
      [.mark c.hdrMarkCyc, .space c.hdrSpaceNs]
        ++ bs.flatMap (fun b => [.mark c.bitMarkCyc, .space (if b then c.oneSpaceNs else c.zeroSpaceNs)])
        ++ (if 0 < c.stopMarkCyc then [.mark c.stopMarkCyc] else []) ++ [.space c.trailerSpaceNs]
    exec (.transmit r len) s =
      .next { s with txq := if r = 1 then f ++ [.space c.gapNs] ++ f else f, busy := true }

/-- `TRANSMIT_NH` completes under the same conditions: payload and trailer, no header, once (R111, R117). -/
def Obligations.TransmitNhLoadsPayloadAndTrailer : Prop :=
  ∀ (len : BitVec 6) (bs : List Bool) (s : State),
    len.toNat ≤ 48 → s.sym.toList.take len.toNat = bs.map .val →
    let c := s.cfg.cfg
    exec (.transmitNh len) s =
      .next { s with
        txq := bs.flatMap (fun b => [.mark c.bitMarkCyc, .space (if b then c.oneSpaceNs else c.zeroSpaceNs)])
          ++ (if 0 < c.stopMarkCyc then [.mark c.stopMarkCyc] else []) ++ [.space c.trailerSpaceNs]
        busy := true }

/-- Both transmit commands fault on the lowest `UNSET` symbol among the first `LEN` (R110, R111, R172). -/
def Obligations.TransmitFaultsOnTheLowestUnsetSymbol : Prop :=
  ∀ (r : BitVec 1) (len : BitVec 6) (k : Fin 48) (s : State),
    len.toNat ≤ 48 → k.val < len.toNat → s.sym[k] = .unset → (∀ j : Fin 48, j < k → s.sym[j] ≠ .unset) →
    exec (.transmit r len) s = .fault (.unsetRead (.sym k.val)) ∧
    exec (.transmitNh len) s = .fault (.unsetRead (.sym k.val))

/-- R110 and R111 on the command word: any word of opcode 5 or 6 at a ready machine, in the order must-be-0 bits,
`LEN`, the lowest `UNSET` symbol, the load. -/
def Obligations.TransmitWordOutcomes : Prop :=
  ∀ (s : State) (w : CmdWord), Ready w s →
    let len := (w.extractLsb' 0 6).toNat
    let cells := s.sym.toList.take len
    (w.extractLsb' 28 4 = 5 →
      (w.extractLsb' 7 21 ≠ 0 → step s = .refused .reservedBits) ∧
      (w.extractLsb' 7 21 = 0 → 48 < len → step s = .refused .lenRange) ∧
      (∀ (bs : List Bool) (rest : List (Reg Bool)), w.extractLsb' 7 21 = 0 → len ≤ 48 →
        cells = bs.map .val ++ .unset :: rest → step s = .fault (.unsetRead (.sym bs.length))) ∧
      (∀ bs : List Bool, w.extractLsb' 7 21 = 0 → len ≤ 48 → cells = bs.map .val →
        step s = .next { s with
          port := none, busy := true
          txq := if w.getLsbD 6 then frame s.cfg.cfg bs true ++ [.space s.cfg.cfg.gapNs] ++ frame s.cfg.cfg bs true
            else frame s.cfg.cfg bs true })) ∧
    (w.extractLsb' 28 4 = 6 →
      (w.extractLsb' 6 22 ≠ 0 → step s = .refused .reservedBits) ∧
      (w.extractLsb' 6 22 = 0 → 48 < len → step s = .refused .lenRange) ∧
      (∀ (bs : List Bool) (rest : List (Reg Bool)), w.extractLsb' 6 22 = 0 → len ≤ 48 →
        cells = bs.map .val ++ .unset :: rest → step s = .fault (.unsetRead (.sym bs.length))) ∧
      (∀ bs : List Bool, w.extractLsb' 6 22 = 0 → len ≤ 48 → cells = bs.map .val →
        step s = .next { s with port := none, busy := true, txq := frame s.cfg.cfg bs false }))

/-- An empty transmission sends header and trailer, or the trailer alone, on any buffer (R118). -/
def Obligations.EmptyTransmissionStillSendsItsFraming : Prop :=
  ∀ s : State,
    exec (.transmit 0 0) s =
      .next { s with
        txq := [.mark s.cfg.cfg.hdrMarkCyc, .space s.cfg.cfg.hdrSpaceNs] ++ trailerSegs s.cfg.cfg, busy := true } ∧
    exec (.transmitNh 0) s = .next { s with txq := trailerSegs s.cfg.cfg, busy := true }

/-- R119: the segment counts of a frame, of a repeated transmission, and of a full frame with a closing mark. -/
def Obligations.SegmentCounts : Prop :=
  ∀ (c : Cfg) (bs : List Bool) (header : Bool),
    let st := if 0 < c.stopMarkCyc then 1 else 0
    (frame c bs header).length = 2 * (if header then 1 else 0) + 2 * bs.length + st + 1 ∧
    (transmitQueue c bs true).length = 2 * (2 + 2 * bs.length + st + 1) + 1 ∧
    (bs.length = 48 → st = 1 → (transmitQueue c bs false).length = 100 ∧ (transmitQueue c bs true).length = 201)

/-- R128: the total duration of a frame and of a repeated transmission. -/
def Obligations.TransmissionDuration : Prop :=
  ∀ (c : Cfg) (bs : List Bool) (header : Bool),
    let p := c.carrierHighNs + c.carrierLowNs
    let ones := bs.count true
    let one (h : Nat) : Nat :=
      h * (c.hdrMarkCyc * p + c.hdrSpaceNs) + bs.length * c.bitMarkCyc * p + ones * c.oneSpaceNs
        + (bs.length - ones) * c.zeroSpaceNs + c.stopMarkCyc * p + c.trailerSpaceNs
    totalNs c (frame c bs header) = one (if header then 1 else 0) ∧
    totalNs c (transmitQueue c bs true) = 2 * one 1 + c.gapNs

/-! ### The pin -/

/-- R121: a mark is its carrier cycles, a space one idle interval, a waveform the concatenation; after a mark and
`Space(d)` the line is low for `CARRIER_LOW_NS + d` before the next active pulse. -/
def Obligations.PinLevelExpansion : Prop :=
  ∀ (c : Cfg) (n m d : Nat) (a b : List Segment),
    pinWave c [.mark n] = (List.replicate n [⟨true, c.carrierHighNs⟩, ⟨false, c.carrierLowNs⟩]).flatten ∧
    pinWave c [.space d] = [⟨false, d⟩] ∧
    pinWave c (a ++ b) = pinWave c a ++ pinWave c b ∧
    mergePins (pinWave c [.mark (n + 1), .space d, .mark (m + 1)]) =
      pinWave c [.mark n] ++ [⟨true, c.carrierHighNs⟩, ⟨false, c.carrierLowNs + d⟩] ++ pinWave c [.mark (m + 1)]

/-- R123: two adjacent spaces are one idle interval, wherever they stand in a waveform. -/
def Obligations.AdjacentSpacesAreOneInterval : Prop :=
  ∀ (c : Cfg) (before afterwards : List Segment) (a b : Nat),
    sameWaveform c (before ++ [.space a, .space b] ++ afterwards) (before ++ [.space (a + b)] ++ afterwards)

/-- Between steps, so between transmissions and at reset, `IR_OUT` is 0 (R29): every segment ends idle (R121). -/
def Obligations.OutputIsIdleBetweenSteps : Prop := ∀ s : State, s.irOut = false

/-! ### The transmitter -/

/-- The emit step (R125), while the host waits, and when it lets the block move. -/
def Obligations.EmitStepMovesTheHeadToTheWave : Prop :=
  ∀ (s : State) (seg : Segment) (q : List Segment), s.mark = none → s.busy = true → s.txq = seg :: q →
    (hostWaits s = true → step s = .next { s with wave := s.wave ++ [seg], txq := q }) ∧
    (∀ rest, s.inputs = .pass :: rest →
      step s = .next { s with wave := s.wave ++ [seg], txq := q, inputs := rest })

/-- The completion step (R126), while the host waits, and when it lets the block move: it lowers `BUSY`, and with it
`INT_INHIBIT`, and leaves the line idle. -/
def Obligations.CompletionStepLowersBusy : Prop :=
  ∀ s : State, s.mark = none → s.busy = true → s.txq = [] →
    (hostWaits s = true →
      ∃ t, step s = .next t ∧ t = { s with busy := false } ∧ t.intInhibit = false ∧ t.irOut = false) ∧
    (∀ rest, s.inputs = .pass :: rest →
      ∃ t, step s = .next t ∧ t = { s with busy := false, inputs := rest } ∧ t.intInhibit = false ∧ t.irOut = false)

/-- While the host waits a transmission runs to completion in exactly |TXQ| + 1 transmitter steps: after `n` of them, `n` at most |TXQ|,
the first `n` segments are in `WAVE` and `BUSY`, and so `INT_INHIBIT`, is still 1; one step after the last segment
`BUSY` is 0 (R127, R196). -/
def Obligations.TransmissionRunsToCompletion : Prop :=
  ∀ s : State, s.mark = none → hostWaits s = true → s.busy = true →
    (∀ n, n ≤ s.txq.length →
      Host.Core.run Sys2Proof.core n s = .next { s with wave := s.wave ++ s.txq.take n, txq := s.txq.drop n }) ∧
    Host.Core.run Sys2Proof.core (s.txq.length + 1) s =
      .next { s with wave := s.wave ++ s.txq, txq := [], busy := false }

/-- From the acceptance of a `TRANSMIT` word to the end: the line carries exactly the segments of the frame the
symbols gave at acceptance (with repetition the frame, the gap and the frame), and nothing else has changed, if the host
has nothing left to do or its next act is one that waits with no command held (R50, R110, R125, R126). -/
def Obligations.AcceptedTransmitEmitsItsFrames : Prop :=
  ∀ (s : State) (w : CmdWord) (r : BitVec 1) (len : BitVec 6) (bs : List Bool),
    Ready w s → hostWaits { s with port := none, busy := true } = true →
    decode w = .ok (.transmit r len) → len.toNat ≤ 48 → s.sym.toList.take len.toNat = bs.map .val →
    Host.Core.run Sys2Proof.core ((transmitQueue s.cfg.cfg bs (r == 1)).length + 2) s =
      .next { s with port := none, wave := s.wave ++ transmitQueue s.cfg.cfg bs (r == 1), txq := [] }

/-! ### Rules of the whole machine -/

/-- `WAVE` is appended by the emit step only; a reset with nothing being sent empties it (R31, R190, R191;
the last is the model's choice, log entry 9). -/
def Obligations.OnlyTheEmitStepExtendsTheWave : Prop :=
  ∀ s t : State, step s = .next t → t.wave ≠ s.wave →
    (s.busy = true ∧ ∃ seg, s.txq = seg :: t.txq ∧ t.wave = s.wave ++ [seg]) ∨
    (t.wave = [] ∧ s.busy = false ∧ ∃ rest, s.inputs = .reset :: rest)

/-- `NWORD` and `IWORD` are written by an accepted `ENCODE` or `ENCODE_SPECIAL` and by nothing else but a reset
(R23, R24, R36). -/
def Obligations.OnlyTheEncodeCommandsWriteTheWords : Prop :=
  ∀ s t : State, step s = .next t → t.nword ≠ s.nword ∨ t.iword ≠ s.iword →
    (∃ w, Offered w s ∧ s.busy = false ∧ (decode w = .ok .encode ∨ ∃ sc, decode w = .ok (.encodeSpecial sc))) ∨
    (∃ rest, s.inputs = .reset :: rest)

/-- `STATE` is written by an accepted `SETSTATE` and by nothing else but a reset (R21, R36, R80). -/
def Obligations.OnlySetstateWritesState : Prop :=
  ∀ s t : State, step s = .next t → t.stateReg ≠ s.stateReg →
    (∃ w temp mode fan ton toff, Offered w s ∧ s.busy = false ∧
      decode w = .ok (.setstate temp mode fan ton toff) ∧ t.stateReg = ⟨temp, mode, fan, ton, toff⟩) ∨
    (∃ rest, s.inputs = .reset :: rest)

/-- A command issued while `BUSY = 1` is held on the port, and nothing else changes in that step (R26, R55, R194). While
`BUSY = 1` a command on the port is kept, the block's registers do not change and the host does nothing that changes its
own state or `HOST_IE`, unless the block is reset; `BUSY` falls only with the queue empty (R20, R26, R49, R176, R194). -/
def Obligations.HostIsHeldWhileBusy : Prop :=
  ∀ s : State, s.busy = true →
    (∀ w rest, s.mark = none → s.port = none → s.inputs = .write w :: rest →
      step s = .next { s with port := some w, inputs := rest }) ∧
    (∀ t, step s = .next t → (∀ rest, s.inputs ≠ .reset :: rest) →
      (∀ w, s.port = some w → t.port = some w) ∧ t.hostIE = s.hostIE ∧ t.host = s.host ∧
      t.stateReg = s.stateReg ∧ t.nword = s.nword ∧ t.iword = s.iword ∧ t.sym = s.sym ∧
      (t.busy = false → s.txq = [] ∧ t.wave = s.wave))

/-- The host takes an interrupt only while `HOST_IE = 1` and `INT_INHIBIT = 0`, one that was pending, and taking it
changes nothing of the block (R28, R176); an interrupt that is pending stays so until it is taken (that none is lost
is the model's choice, log entry 11); and no step but the host's own writes `HOST_IE`. -/
def Obligations.InterruptsAreTakenOnlyWhenNotInhibited : Prop :=
  ∀ s t : State, step s = .next t →
    (t.irqTaken ≠ s.irqTaken →
      s.hostIE = true ∧ s.intInhibit = false ∧ 0 < s.irqPending ∧ t.irqTaken = s.irqTaken + 1 ∧
      t.irqPending + 1 = s.irqPending ∧ t.cfg = s.cfg ∧ t.stateReg = s.stateReg ∧ t.nword = s.nword ∧
      t.iword = s.iword ∧ t.sym = s.sym ∧ t.busy = s.busy ∧ t.txq = s.txq ∧ t.wave = s.wave ∧ t.port = s.port) ∧
    (t.irqTaken = s.irqTaken → s.irqPending ≤ t.irqPending) ∧
    (t.hostIE ≠ s.hostIE → ∃ b rest, s.inputs = .setIE b :: rest)

/-- A pending interrupt is taken right after the completion step, before a held command is accepted and before the host's
next act. That it comes before those is the model's choice (log entry 11); that it is taken is R176. -/
def Obligations.PendingInterruptIsTakenAfterCompletion : Prop :=
  ∀ s : State,
    s.mark = none → hostWaits s = true → s.busy = true → s.txq = [] → s.hostIE = true → 0 < s.irqPending →
    Host.Core.run Sys2Proof.core 2 s =
      .next { s with busy := false, irqPending := s.irqPending - 1, irqTaken := s.irqTaken + 1 }

/-- No step writes the configuration (R32); that State carries it is the model's choice (log entry 1). -/
def Obligations.NoStepWritesTheConfiguration : Prop := ∀ s t : State, step s = .next t → t.cfg = s.cfg

/-! ### Reads -/

/-- The read view, `BUSY` or not: the value read, the block untouched, or `UnsetRead` of the cell (R35). A read comes
after a command the host has issued before it (R49) and after an interrupt it takes (log entries 11 and 12).
The host's input list and the list of values read are the model's own (log entries 5 and 14). -/
def Obligations.HostReadsHaveNoSideEffect : Prop :=
  ∀ (s : State) (rest : List HostAct), s.mark = none → s.port = none → irqReady s = false →
    (s.inputs = .read .state :: rest →
      step s = .next { s with inputs := rest, reads := s.reads ++ [.state s.stateReg] }) ∧
    (s.inputs = .read .busy :: rest → step s = .next { s with inputs := rest, reads := s.reads ++ [.flag s.busy] }) ∧
    (s.inputs = .read .nword :: rest →
      (s.nword = .unset → step s = .fault (.unsetRead .nword)) ∧
      (∀ v, s.nword = .val v → step s = .next { s with inputs := rest, reads := s.reads ++ [.word v] })) ∧
    (s.inputs = .read .iword :: rest →
      (s.iword = .unset → step s = .fault (.unsetRead .iword)) ∧
      (∀ v, s.iword = .val v → step s = .next { s with inputs := rest, reads := s.reads ++ [.word v] })) ∧
    (∀ k : Fin 48, s.inputs = .read (.sym k) :: rest →
      (s.sym[k] = .unset → step s = .fault (.unsetRead (.sym k.val))) ∧
      (∀ b, s.sym[k] = .val b → step s = .next { s with inputs := rest, reads := s.reads ++ [.symbol b] }))

/-! ### Reset and power-up -/

/-- What reset leaves (R36, R190). -/
def Obligations.ResetLeavesTheTableOfValues : Prop :=
  State.reset.stateReg.temp = 20 ∧ State.reset.stateReg.mode = 0 ∧ State.reset.stateReg.fan = 1 ∧
  State.reset.stateReg.ton = 0 ∧ State.reset.stateReg.toff = 0 ∧
  State.reset.nword = .unset ∧ State.reset.iword = .unset ∧ (∀ k : Fin 48, State.reset.sym[k] = .unset) ∧
  State.reset.busy = false ∧ State.reset.txq = [] ∧ State.reset.intInhibit = false ∧ State.reset.irOut = false ∧
  State.reset.wave = [] ∧ State.reset.mark = none

/-- A reset while `BUSY = 1` ends the transmission (R191), keeps the segments already emitted and sets the registers to
their reset values (R190). That `WAVE` is kept is R191's modelling choice and that of log entry 9; the reset comes as an
entry of the model's input list (log entry 5). -/
def Obligations.ResetEndsATransmission : Prop :=
  ∀ (s : State) (rest : List HostAct), s.mark = none → s.inputs = .reset :: rest → s.busy = true →
    ∃ t, step s = .next t ∧ t.txq = [] ∧ t.busy = false ∧ t.intInhibit = false ∧ t.irOut = false ∧
      t.wave = s.wave ∧ t.stateReg = State.reset.stateReg ∧ t.nword = .unset ∧ t.iword = .unset ∧
      (∀ k : Fin 48, t.sym[k] = .unset) ∧ t.mark = none ∧ t.inputs = rest

/-- R66 and R173: power-up accepts a configuration exactly when every named check holds, each written out, and then
the block is in its reset state; otherwise it is refused with a check that fails. -/
def Obligations.PowerUpAcceptsExactlyWellFormedConfigurations : Prop :=
  ∀ c : Cfg,
    let disjoint (a m b n : Nat) : Prop := ∀ k, ¬ ((a ≤ k ∧ k < a + m) ∧ (b ≤ k ∧ k < b + n))
    let ok : CfgCheck → Prop := fun
      | .widths => c.hdr < 2 ^ 8 ∧ (∀ k : Fin 14, c.tempCode[k] < 2 ^ 4) ∧ c.noTempCode < 2 ^ 4 ∧
          c.tempFallback < 2 ^ 4 ∧ (∀ k : Fin 5, c.modeCode[k] < 2 ^ 2) ∧ c.modeFallback < 2 ^ 2 ∧
          (∀ k : Fin 5, c.fanCode[k] < 2 ^ 3) ∧ c.fanFallback < 2 ^ 3 ∧ (∀ k : Fin 36, c.toffCode[k] < 2 ^ c.tw) ∧
          c.toffFallback < 2 ^ c.tw ∧ (∀ k : Fin 36, c.tonCode[k] < 2 ^ c.tw) ∧ c.noTon < 2 ^ c.tw ∧
          c.tonFallback < 2 ^ c.tw ∧ c.tmask < 2 ^ 24 ∧ c.tonActive < 2 ^ 24 ∧ (∀ k : Fin 6, c.special[k] < 2 ^ 24)
      | .tw => 1 ≤ c.tw ∧ c.tw ≤ 16
      | .belowHdr => c.tShift + 4 ≤ 16 ∧ c.mShift + 2 ≤ 16 ∧ c.fShift + 3 ≤ 16 ∧ c.offShift + c.tw ≤ 16
      | .disjoint => disjoint c.tShift 4 c.mShift 2 ∧ disjoint c.tShift 4 c.fShift 3 ∧
          disjoint c.tShift 4 c.offShift c.tw ∧ disjoint c.mShift 2 c.fShift 3 ∧
          disjoint c.mShift 2 c.offShift c.tw ∧ disjoint c.fShift 3 c.offShift c.tw
      | .onSpan => c.onShift + c.tw ≤ 24
      | .flagInMask => c.tflagPos < 24 ∧ c.tmask.testBit c.tflagPos = true
      | .spaces => c.zeroSpaceNs < c.oneSpaceNs
      | .marks => 1 ≤ c.hdrMarkCyc ∧ 1 ≤ c.bitMarkCyc ∧ 1 ≤ c.carrierHighNs ∧ 1 ≤ c.carrierLowNs
    ((∀ k, ok k) → ∃ w : WfCfg, w.cfg = c ∧ powerUp c = .next (State.resetWith w)) ∧
    ((∃ k, ¬ ok k) → ∃ k, ¬ ok k ∧ powerUp c = .refused (.config k))

/-! ### The invariant -/

/-- The block's invariant holds at reset, whatever the configuration. -/
def Obligations.ResetMeetsTheBlockInvariant : Prop :=
  Inv State.reset ∧ ∀ w : WfCfg, Inv (State.resetWith w)

/-- Every step keeps the block's invariant: `TXQ` is empty unless `BUSY = 1` and ends with the trailer space; the two
words are `UNSET` together; once they are written no symbol is `UNSET`; the cells of a half are `UNSET` together;
and no mark of the waveform is empty. -/
def Obligations.EveryStepKeepsTheBlockInvariant : Prop := ∀ s t : State, Inv s → step s = .next t → Inv t

/-- After any encode command the buffer can be sent whole: under the invariant, with the words written and the machine
ready for a word that decodes to a transmit command with a legal length, the step answers a next state with
`BUSY = 1` and a nonempty queue (R81, R82, R126). -/
def Obligations.TransmitAfterEncodeNeverFaults : Prop :=
  ∀ (s : State) (w : CmdWord), Inv s → s.nword ≠ .unset → Ready w s →
    (∃ r len, decode w = .ok (.transmit r len) ∧ len.toNat ≤ 48) ∨
      (∃ len, decode w = .ok (.transmitNh len) ∧ len.toNat ≤ 48) →
    ∃ t, step s = .next t ∧ t.busy = true ∧ t.txq ≠ []

/-! ### The host's Controller -/

/-- The Controller's invariants hold at reset and after every step: the temperature in [17,30], the timers never equal
but for 0 (R142, R144). -/
def Obligations.StepsKeepTheControllersInvariants : Prop :=
  HostOk State.reset.host ∧ ∀ s t : State, HostOk s.host → step s = .next t → HostOk t.host

/-- The commands of every operation are well formed, none is `TRANSMIT_NH` (R160), and a `SETSTATE` among them carries
values inside the encoder's tables and no timer collision (R142 to R144). -/
def Obligations.ControllerCommandsStayInRange : Prop :=
  ∀ (p : HostCfg) (o : HostOp) (h : HostState), HostOk h → ∀ i ∈ (hostOperate p o h).2,
    WellFormed i ∧ (∀ len, i ≠ .transmitNh len) ∧
    (∀ temp mode fan ton toff, i = .setstate temp mode fan ton toff →
      17 ≤ temp.toNat ∧ temp.toNat ≤ 30 ∧ mode.toNat ≤ 4 ∧ fan.toNat ≤ 4 ∧ ton.toNat ≤ 35 ∧ toff.toNat ≤ 35 ∧
      (ton = toff → ton = 0))

/-- R142: the stored temperature is the nearest bound outside [17,30] and the input itself inside. -/
def Obligations.TemperatureSetterClamps : Prop :=
  ∀ (p : HostCfg) (h : HostState) (t : Int),
    let stored : Nat := (hostOperate p (.setTemperature t) h).1.temperature
    (t < 17 → stored = 17) ∧ (30 < t → stored = 30) ∧ (17 ≤ t → t ≤ 30 → (stored : Int) = t)

/-- R144: when a timer is set or stepped to the other's nonzero index the off-timer is moved by one step, down at 35 and
up below; the on-timer has the index asked for, and the two are never equal after the call. -/
def Obligations.TimerCollisionMovesTheOffTimer : Prop :=
  ∀ (p : HostCfg) (h : HostState) (i : Fin 36) (o : HostOp), i ≠ 0 →
    (o = .setTimerOff i.val ∧ h.timerOn = i) ∨ (o = .timerOffStep ∧ h.timerOn = i ∧ h.timerOff.val + 1 = i.val) ∨
      (o = .setTimerOn i.val ∧ h.timerOff = i) ∨ (o = .timerOnStep ∧ h.timerOff = i ∧ h.timerOn.val + 1 = i.val) →
    let h' := (hostOperate p o h).1
    (i.val = 35 → h'.timerOff.val = 34) ∧ (i.val < 35 → h'.timerOff.val = i.val + 1) ∧
    h'.timerOn = i ∧ h'.timerOff ≠ h'.timerOn

/-- R149 and R148: power off clears `powered`, zeroes both timers and, on a powered unit, sends the power-off special
frame; power on sends the composed frame of the state. `R` is the host's open choice; that power off issues no `setstate`
beside it is the model's choice (log entry 24). -/
def Obligations.PowerOffAndOnCommands : Prop :=
  ∀ (p : HostCfg) (h : HostState),
    let off := hostOperate p .powerOff h
    let on := hostOperate p .powerOn h
    off.1 = { h with powered := false, timerOn := 0, timerOff := 0 } ∧
    (h.powered = true → off.2.map encode = [0x30000000, 0x50000030 ||| place (repeatBit (p.hostRepeat .powerOff)) 6]) ∧
    on.1 = { h with powered := true } ∧
    on.2.map encode = [encode (setStateOf h), 0x20000000, 0x50000030 ||| place (repeatBit (p.hostRepeat .powerOn)) 6]

/-- R156: the toggles send their special frame on a powered unit and nothing on an unpowered one, but LED-display,
which always sends; none changes the host's state. -/
def Obligations.TogglesSendOnlyWhenPowered : Prop :=
  ∀ (p : HostCfg) (h : HostState) (o : HostOp) (sc : BitVec 3),
    (o = .swing ∧ sc = 1) ∨ (o = .airDirection ∧ sc = 2) ∨ (o = .cleanAir ∧ sc = 3) ∨ (o = .ledDisplay ∧ sc = 4) ∨
      (o = .turbo ∧ sc = 5) →
    hostOperate p o h =
      (h, if h.powered = true ∨ o = .ledDisplay then
            [.encodeSpecial sc, .transmit (BitVec.ofBool (p.hostRepeat o)) 48]
          else [])

/-- An operation of a free host stores its state and puts its command words, in order, and its return before the rest of
the inputs (R146, R161); the return, once its words are accepted and its transmission is over, notes the operation with
its result, for the temperature steps the temperature (R151). The lists of inputs and of returns are the model's choice
(log entries 5, 15 and 26). -/
def Obligations.OperationIssuesItsCommandsAndReturns : Prop :=
  ∀ (s : State) (o : HostOp) (rest : List HostAct), s.mark = none → HostFree s →
    (s.inputs = .op o :: rest →
      step s = .next { s with
        host := (hostOperate Config.hostCfg o s.host).1
        inputs := (hostOperate Config.hostCfg o s.host).2.map (fun i => .write (encode i)) ++ .ret o :: rest }) ∧
    (s.inputs = .ret o :: rest →
      ∃ v, step s = .next { s with inputs := rest, returns := s.returns ++ [(o, v)] } ∧
        (o = .tempUp ∨ o = .tempDown → v = some s.host.temperature))
end

