-- ==== Sys2Proof/Laws/State.lean ====
section
/-! SUPPORT. One lemma per field per update of the state, each true by unfolding the update once. -/

namespace Sys2Proof.Machine

section
variable (s : State)

@[simp] theorem setBusy_cfg : (setBusy s).cfg = s.cfg := rfl
@[simp] theorem setBusy_stateReg : (setBusy s).stateReg = s.stateReg := rfl
@[simp] theorem setBusy_nword : (setBusy s).nword = s.nword := rfl
@[simp] theorem setBusy_iword : (setBusy s).iword = s.iword := rfl
@[simp] theorem setBusy_sym : (setBusy s).sym = s.sym := rfl
@[simp] theorem setBusy_busy : (setBusy s).busy = true := rfl
@[simp] theorem setBusy_txq : (setBusy s).txq = s.txq := rfl
@[simp] theorem setBusy_wave : (setBusy s).wave = s.wave := rfl
@[simp] theorem setBusy_mark : (setBusy s).mark = s.mark := rfl
@[simp] theorem setBusy_port : (setBusy s).port = s.port := rfl
@[simp] theorem setBusy_hostIE : (setBusy s).hostIE = s.hostIE := rfl
@[simp] theorem setBusy_irqPending : (setBusy s).irqPending = s.irqPending := rfl
@[simp] theorem setBusy_irqTaken : (setBusy s).irqTaken = s.irqTaken := rfl
@[simp] theorem setBusy_host : (setBusy s).host = s.host := rfl
@[simp] theorem setBusy_inputs : (setBusy s).inputs = s.inputs := rfl
@[simp] theorem setBusy_reads : (setBusy s).reads = s.reads := rfl
@[simp] theorem setBusy_returns : (setBusy s).returns = s.returns := rfl

@[simp] theorem clearBusy_cfg : (clearBusy s).cfg = s.cfg := rfl
@[simp] theorem clearBusy_stateReg : (clearBusy s).stateReg = s.stateReg := rfl
@[simp] theorem clearBusy_nword : (clearBusy s).nword = s.nword := rfl
@[simp] theorem clearBusy_iword : (clearBusy s).iword = s.iword := rfl
@[simp] theorem clearBusy_sym : (clearBusy s).sym = s.sym := rfl
@[simp] theorem clearBusy_busy : (clearBusy s).busy = false := rfl
@[simp] theorem clearBusy_txq : (clearBusy s).txq = s.txq := rfl
@[simp] theorem clearBusy_wave : (clearBusy s).wave = s.wave := rfl
@[simp] theorem clearBusy_mark : (clearBusy s).mark = s.mark := rfl
@[simp] theorem clearBusy_port : (clearBusy s).port = s.port := rfl
@[simp] theorem clearBusy_hostIE : (clearBusy s).hostIE = s.hostIE := rfl
@[simp] theorem clearBusy_irqPending : (clearBusy s).irqPending = s.irqPending := rfl
@[simp] theorem clearBusy_irqTaken : (clearBusy s).irqTaken = s.irqTaken := rfl
@[simp] theorem clearBusy_host : (clearBusy s).host = s.host := rfl
@[simp] theorem clearBusy_inputs : (clearBusy s).inputs = s.inputs := rfl
@[simp] theorem clearBusy_reads : (clearBusy s).reads = s.reads := rfl
@[simp] theorem clearBusy_returns : (clearBusy s).returns = s.returns := rfl

@[simp] theorem writeState_cfg (r : StateReg) : (writeState r s).cfg = s.cfg := rfl
@[simp] theorem writeState_stateReg (r : StateReg) : (writeState r s).stateReg = r := rfl
@[simp] theorem writeState_nword (r : StateReg) : (writeState r s).nword = s.nword := rfl
@[simp] theorem writeState_iword (r : StateReg) : (writeState r s).iword = s.iword := rfl
@[simp] theorem writeState_sym (r : StateReg) : (writeState r s).sym = s.sym := rfl
@[simp] theorem writeState_busy (r : StateReg) : (writeState r s).busy = s.busy := rfl
@[simp] theorem writeState_txq (r : StateReg) : (writeState r s).txq = s.txq := rfl
@[simp] theorem writeState_wave (r : StateReg) : (writeState r s).wave = s.wave := rfl
@[simp] theorem writeState_mark (r : StateReg) : (writeState r s).mark = s.mark := rfl
@[simp] theorem writeState_port (r : StateReg) : (writeState r s).port = s.port := rfl
@[simp] theorem writeState_hostIE (r : StateReg) : (writeState r s).hostIE = s.hostIE := rfl
@[simp] theorem writeState_irqPending (r : StateReg) : (writeState r s).irqPending = s.irqPending := rfl
@[simp] theorem writeState_irqTaken (r : StateReg) : (writeState r s).irqTaken = s.irqTaken := rfl
@[simp] theorem writeState_host (r : StateReg) : (writeState r s).host = s.host := rfl
@[simp] theorem writeState_inputs (r : StateReg) : (writeState r s).inputs = s.inputs := rfl
@[simp] theorem writeState_reads (r : StateReg) : (writeState r s).reads = s.reads := rfl
@[simp] theorem writeState_returns (r : StateReg) : (writeState r s).returns = s.returns := rfl

@[simp] theorem writeWords_cfg (n i : Word24) : (writeWords n i s).cfg = s.cfg := rfl
@[simp] theorem writeWords_stateReg (n i : Word24) : (writeWords n i s).stateReg = s.stateReg := rfl
@[simp] theorem writeWords_nword (n i : Word24) : (writeWords n i s).nword = .val n := rfl
@[simp] theorem writeWords_iword (n i : Word24) : (writeWords n i s).iword = .val i := rfl
@[simp] theorem writeWords_sym (n i : Word24) : (writeWords n i s).sym = (expand n i).map .val := rfl
@[simp] theorem writeWords_busy (n i : Word24) : (writeWords n i s).busy = s.busy := rfl
@[simp] theorem writeWords_txq (n i : Word24) : (writeWords n i s).txq = s.txq := rfl
@[simp] theorem writeWords_wave (n i : Word24) : (writeWords n i s).wave = s.wave := rfl
@[simp] theorem writeWords_mark (n i : Word24) : (writeWords n i s).mark = s.mark := rfl
@[simp] theorem writeWords_port (n i : Word24) : (writeWords n i s).port = s.port := rfl
@[simp] theorem writeWords_hostIE (n i : Word24) : (writeWords n i s).hostIE = s.hostIE := rfl
@[simp] theorem writeWords_irqPending (n i : Word24) : (writeWords n i s).irqPending = s.irqPending := rfl
@[simp] theorem writeWords_irqTaken (n i : Word24) : (writeWords n i s).irqTaken = s.irqTaken := rfl
@[simp] theorem writeWords_host (n i : Word24) : (writeWords n i s).host = s.host := rfl
@[simp] theorem writeWords_inputs (n i : Word24) : (writeWords n i s).inputs = s.inputs := rfl
@[simp] theorem writeWords_reads (n i : Word24) : (writeWords n i s).reads = s.reads := rfl
@[simp] theorem writeWords_returns (n i : Word24) : (writeWords n i s).returns = s.returns := rfl

@[simp] theorem writeHalf_cfg (h : BitVec 1) (data : BitVec 24) : (writeHalf h data s).cfg = s.cfg := by
  simp only [writeHalf]
@[simp] theorem writeHalf_stateReg (h : BitVec 1) (data : BitVec 24) :
    (writeHalf h data s).stateReg = s.stateReg := by
  simp only [writeHalf]
@[simp] theorem writeHalf_nword (h : BitVec 1) (data : BitVec 24) : (writeHalf h data s).nword = s.nword := by
  simp only [writeHalf]
@[simp] theorem writeHalf_iword (h : BitVec 1) (data : BitVec 24) : (writeHalf h data s).iword = s.iword := by
  simp only [writeHalf]
@[simp] theorem writeHalf_sym (h : BitVec 1) (data : BitVec 24) :
    (writeHalf h data s).sym = halfWritten h data s.sym := by
  simp only [writeHalf]
@[simp] theorem writeHalf_busy (h : BitVec 1) (data : BitVec 24) : (writeHalf h data s).busy = s.busy := by
  simp only [writeHalf]
@[simp] theorem writeHalf_txq (h : BitVec 1) (data : BitVec 24) : (writeHalf h data s).txq = s.txq := by
  simp only [writeHalf]
@[simp] theorem writeHalf_wave (h : BitVec 1) (data : BitVec 24) : (writeHalf h data s).wave = s.wave := by
  simp only [writeHalf]
@[simp] theorem writeHalf_mark (h : BitVec 1) (data : BitVec 24) : (writeHalf h data s).mark = s.mark := by
  simp only [writeHalf]
@[simp] theorem writeHalf_port (h : BitVec 1) (data : BitVec 24) : (writeHalf h data s).port = s.port := by
  simp only [writeHalf]
@[simp] theorem writeHalf_hostIE (h : BitVec 1) (data : BitVec 24) : (writeHalf h data s).hostIE = s.hostIE := by
  simp only [writeHalf]
@[simp] theorem writeHalf_irqPending (h : BitVec 1) (data : BitVec 24) :
    (writeHalf h data s).irqPending = s.irqPending := by
  simp only [writeHalf]
@[simp] theorem writeHalf_irqTaken (h : BitVec 1) (data : BitVec 24) :
    (writeHalf h data s).irqTaken = s.irqTaken := by
  simp only [writeHalf]
@[simp] theorem writeHalf_host (h : BitVec 1) (data : BitVec 24) : (writeHalf h data s).host = s.host := by
  simp only [writeHalf]
@[simp] theorem writeHalf_inputs (h : BitVec 1) (data : BitVec 24) : (writeHalf h data s).inputs = s.inputs := by
  simp only [writeHalf]
@[simp] theorem writeHalf_reads (h : BitVec 1) (data : BitVec 24) : (writeHalf h data s).reads = s.reads := by
  simp only [writeHalf]
@[simp] theorem writeHalf_returns (h : BitVec 1) (data : BitVec 24) : (writeHalf h data s).returns = s.returns := by
  simp only [writeHalf]

@[simp] theorem loadTx_cfg (q : List Segment) : (loadTx q s).cfg = s.cfg := rfl
@[simp] theorem loadTx_stateReg (q : List Segment) : (loadTx q s).stateReg = s.stateReg := rfl
@[simp] theorem loadTx_nword (q : List Segment) : (loadTx q s).nword = s.nword := rfl
@[simp] theorem loadTx_iword (q : List Segment) : (loadTx q s).iword = s.iword := rfl
@[simp] theorem loadTx_sym (q : List Segment) : (loadTx q s).sym = s.sym := rfl
@[simp] theorem loadTx_busy (q : List Segment) : (loadTx q s).busy = true := rfl
@[simp] theorem loadTx_txq (q : List Segment) : (loadTx q s).txq = q := rfl
@[simp] theorem loadTx_wave (q : List Segment) : (loadTx q s).wave = s.wave := rfl
@[simp] theorem loadTx_mark (q : List Segment) : (loadTx q s).mark = s.mark := rfl
@[simp] theorem loadTx_port (q : List Segment) : (loadTx q s).port = s.port := rfl
@[simp] theorem loadTx_hostIE (q : List Segment) : (loadTx q s).hostIE = s.hostIE := rfl
@[simp] theorem loadTx_irqPending (q : List Segment) : (loadTx q s).irqPending = s.irqPending := rfl
@[simp] theorem loadTx_irqTaken (q : List Segment) : (loadTx q s).irqTaken = s.irqTaken := rfl
@[simp] theorem loadTx_host (q : List Segment) : (loadTx q s).host = s.host := rfl
@[simp] theorem loadTx_inputs (q : List Segment) : (loadTx q s).inputs = s.inputs := rfl
@[simp] theorem loadTx_reads (q : List Segment) : (loadTx q s).reads = s.reads := rfl
@[simp] theorem loadTx_returns (q : List Segment) : (loadTx q s).returns = s.returns := rfl

@[simp] theorem takePort_cfg : (takePort s).cfg = s.cfg := rfl
@[simp] theorem takePort_stateReg : (takePort s).stateReg = s.stateReg := rfl
@[simp] theorem takePort_nword : (takePort s).nword = s.nword := rfl
@[simp] theorem takePort_iword : (takePort s).iword = s.iword := rfl
@[simp] theorem takePort_sym : (takePort s).sym = s.sym := rfl
@[simp] theorem takePort_busy : (takePort s).busy = s.busy := rfl
@[simp] theorem takePort_txq : (takePort s).txq = s.txq := rfl
@[simp] theorem takePort_wave : (takePort s).wave = s.wave := rfl
@[simp] theorem takePort_mark : (takePort s).mark = s.mark := rfl
@[simp] theorem takePort_port : (takePort s).port = none := rfl
@[simp] theorem takePort_hostIE : (takePort s).hostIE = s.hostIE := rfl
@[simp] theorem takePort_irqPending : (takePort s).irqPending = s.irqPending := rfl
@[simp] theorem takePort_irqTaken : (takePort s).irqTaken = s.irqTaken := rfl
@[simp] theorem takePort_host : (takePort s).host = s.host := rfl
@[simp] theorem takePort_inputs : (takePort s).inputs = s.inputs := rfl
@[simp] theorem takePort_reads : (takePort s).reads = s.reads := rfl
@[simp] theorem takePort_returns : (takePort s).returns = s.returns := rfl

@[simp] theorem putPort_cfg (w : CmdWord) : (putPort w s).cfg = s.cfg := rfl
@[simp] theorem putPort_stateReg (w : CmdWord) : (putPort w s).stateReg = s.stateReg := rfl
@[simp] theorem putPort_nword (w : CmdWord) : (putPort w s).nword = s.nword := rfl
@[simp] theorem putPort_iword (w : CmdWord) : (putPort w s).iword = s.iword := rfl
@[simp] theorem putPort_sym (w : CmdWord) : (putPort w s).sym = s.sym := rfl
@[simp] theorem putPort_busy (w : CmdWord) : (putPort w s).busy = s.busy := rfl
@[simp] theorem putPort_txq (w : CmdWord) : (putPort w s).txq = s.txq := rfl
@[simp] theorem putPort_wave (w : CmdWord) : (putPort w s).wave = s.wave := rfl
@[simp] theorem putPort_mark (w : CmdWord) : (putPort w s).mark = s.mark := rfl
@[simp] theorem putPort_port (w : CmdWord) : (putPort w s).port = some w := rfl
@[simp] theorem putPort_hostIE (w : CmdWord) : (putPort w s).hostIE = s.hostIE := rfl
@[simp] theorem putPort_irqPending (w : CmdWord) : (putPort w s).irqPending = s.irqPending := rfl
@[simp] theorem putPort_irqTaken (w : CmdWord) : (putPort w s).irqTaken = s.irqTaken := rfl
@[simp] theorem putPort_host (w : CmdWord) : (putPort w s).host = s.host := rfl
@[simp] theorem putPort_inputs (w : CmdWord) : (putPort w s).inputs = s.inputs := rfl
@[simp] theorem putPort_reads (w : CmdWord) : (putPort w s).reads = s.reads := rfl
@[simp] theorem putPort_returns (w : CmdWord) : (putPort w s).returns = s.returns := rfl

@[simp] theorem setInputs_cfg (rest : List HostAct) : (setInputs rest s).cfg = s.cfg := rfl
@[simp] theorem setInputs_stateReg (rest : List HostAct) : (setInputs rest s).stateReg = s.stateReg := rfl
@[simp] theorem setInputs_nword (rest : List HostAct) : (setInputs rest s).nword = s.nword := rfl
@[simp] theorem setInputs_iword (rest : List HostAct) : (setInputs rest s).iword = s.iword := rfl
@[simp] theorem setInputs_sym (rest : List HostAct) : (setInputs rest s).sym = s.sym := rfl
@[simp] theorem setInputs_busy (rest : List HostAct) : (setInputs rest s).busy = s.busy := rfl
@[simp] theorem setInputs_txq (rest : List HostAct) : (setInputs rest s).txq = s.txq := rfl
@[simp] theorem setInputs_wave (rest : List HostAct) : (setInputs rest s).wave = s.wave := rfl
@[simp] theorem setInputs_mark (rest : List HostAct) : (setInputs rest s).mark = s.mark := rfl
@[simp] theorem setInputs_port (rest : List HostAct) : (setInputs rest s).port = s.port := rfl
@[simp] theorem setInputs_hostIE (rest : List HostAct) : (setInputs rest s).hostIE = s.hostIE := rfl
@[simp] theorem setInputs_irqPending (rest : List HostAct) : (setInputs rest s).irqPending = s.irqPending := rfl
@[simp] theorem setInputs_irqTaken (rest : List HostAct) : (setInputs rest s).irqTaken = s.irqTaken := rfl
@[simp] theorem setInputs_host (rest : List HostAct) : (setInputs rest s).host = s.host := rfl
@[simp] theorem setInputs_inputs (rest : List HostAct) : (setInputs rest s).inputs = rest := rfl
@[simp] theorem setInputs_reads (rest : List HostAct) : (setInputs rest s).reads = s.reads := rfl
@[simp] theorem setInputs_returns (rest : List HostAct) : (setInputs rest s).returns = s.returns := rfl

@[simp] theorem noteRead_cfg (v : ReadValue) : (noteRead v s).cfg = s.cfg := rfl
@[simp] theorem noteRead_stateReg (v : ReadValue) : (noteRead v s).stateReg = s.stateReg := rfl
@[simp] theorem noteRead_nword (v : ReadValue) : (noteRead v s).nword = s.nword := rfl
@[simp] theorem noteRead_iword (v : ReadValue) : (noteRead v s).iword = s.iword := rfl
@[simp] theorem noteRead_sym (v : ReadValue) : (noteRead v s).sym = s.sym := rfl
@[simp] theorem noteRead_busy (v : ReadValue) : (noteRead v s).busy = s.busy := rfl
@[simp] theorem noteRead_txq (v : ReadValue) : (noteRead v s).txq = s.txq := rfl
@[simp] theorem noteRead_wave (v : ReadValue) : (noteRead v s).wave = s.wave := rfl
@[simp] theorem noteRead_mark (v : ReadValue) : (noteRead v s).mark = s.mark := rfl
@[simp] theorem noteRead_port (v : ReadValue) : (noteRead v s).port = s.port := rfl
@[simp] theorem noteRead_hostIE (v : ReadValue) : (noteRead v s).hostIE = s.hostIE := rfl
@[simp] theorem noteRead_irqPending (v : ReadValue) : (noteRead v s).irqPending = s.irqPending := rfl
@[simp] theorem noteRead_irqTaken (v : ReadValue) : (noteRead v s).irqTaken = s.irqTaken := rfl
@[simp] theorem noteRead_host (v : ReadValue) : (noteRead v s).host = s.host := rfl
@[simp] theorem noteRead_inputs (v : ReadValue) : (noteRead v s).inputs = s.inputs := rfl
@[simp] theorem noteRead_reads (v : ReadValue) : (noteRead v s).reads = s.reads ++ [v] := rfl
@[simp] theorem noteRead_returns (v : ReadValue) : (noteRead v s).returns = s.returns := rfl

@[simp] theorem noteReturn_cfg (o : HostOp) (v : Option Nat) : (noteReturn o v s).cfg = s.cfg := rfl
@[simp] theorem noteReturn_stateReg (o : HostOp) (v : Option Nat) : (noteReturn o v s).stateReg = s.stateReg := rfl
@[simp] theorem noteReturn_nword (o : HostOp) (v : Option Nat) : (noteReturn o v s).nword = s.nword := rfl
@[simp] theorem noteReturn_iword (o : HostOp) (v : Option Nat) : (noteReturn o v s).iword = s.iword := rfl
@[simp] theorem noteReturn_sym (o : HostOp) (v : Option Nat) : (noteReturn o v s).sym = s.sym := rfl
@[simp] theorem noteReturn_busy (o : HostOp) (v : Option Nat) : (noteReturn o v s).busy = s.busy := rfl
@[simp] theorem noteReturn_txq (o : HostOp) (v : Option Nat) : (noteReturn o v s).txq = s.txq := rfl
@[simp] theorem noteReturn_wave (o : HostOp) (v : Option Nat) : (noteReturn o v s).wave = s.wave := rfl
@[simp] theorem noteReturn_mark (o : HostOp) (v : Option Nat) : (noteReturn o v s).mark = s.mark := rfl
@[simp] theorem noteReturn_port (o : HostOp) (v : Option Nat) : (noteReturn o v s).port = s.port := rfl
@[simp] theorem noteReturn_hostIE (o : HostOp) (v : Option Nat) : (noteReturn o v s).hostIE = s.hostIE := rfl
@[simp] theorem noteReturn_irqPending (o : HostOp) (v : Option Nat) : (noteReturn o v s).irqPending = s.irqPending := rfl
@[simp] theorem noteReturn_irqTaken (o : HostOp) (v : Option Nat) : (noteReturn o v s).irqTaken = s.irqTaken := rfl
@[simp] theorem noteReturn_host (o : HostOp) (v : Option Nat) : (noteReturn o v s).host = s.host := rfl
@[simp] theorem noteReturn_inputs (o : HostOp) (v : Option Nat) : (noteReturn o v s).inputs = s.inputs := rfl
@[simp] theorem noteReturn_reads (o : HostOp) (v : Option Nat) : (noteReturn o v s).reads = s.reads := rfl
@[simp] theorem noteReturn_returns (o : HostOp) (v : Option Nat) : (noteReturn o v s).returns = s.returns ++ [(o, v)] := rfl

@[simp] theorem setHostIE_cfg (b : Bool) : (setHostIE b s).cfg = s.cfg := rfl
@[simp] theorem setHostIE_stateReg (b : Bool) : (setHostIE b s).stateReg = s.stateReg := rfl
@[simp] theorem setHostIE_nword (b : Bool) : (setHostIE b s).nword = s.nword := rfl
@[simp] theorem setHostIE_iword (b : Bool) : (setHostIE b s).iword = s.iword := rfl
@[simp] theorem setHostIE_sym (b : Bool) : (setHostIE b s).sym = s.sym := rfl
@[simp] theorem setHostIE_busy (b : Bool) : (setHostIE b s).busy = s.busy := rfl
@[simp] theorem setHostIE_txq (b : Bool) : (setHostIE b s).txq = s.txq := rfl
@[simp] theorem setHostIE_wave (b : Bool) : (setHostIE b s).wave = s.wave := rfl
@[simp] theorem setHostIE_mark (b : Bool) : (setHostIE b s).mark = s.mark := rfl
@[simp] theorem setHostIE_port (b : Bool) : (setHostIE b s).port = s.port := rfl
@[simp] theorem setHostIE_hostIE (b : Bool) : (setHostIE b s).hostIE = b := rfl
@[simp] theorem setHostIE_irqPending (b : Bool) : (setHostIE b s).irqPending = s.irqPending := rfl
@[simp] theorem setHostIE_irqTaken (b : Bool) : (setHostIE b s).irqTaken = s.irqTaken := rfl
@[simp] theorem setHostIE_host (b : Bool) : (setHostIE b s).host = s.host := rfl
@[simp] theorem setHostIE_inputs (b : Bool) : (setHostIE b s).inputs = s.inputs := rfl
@[simp] theorem setHostIE_reads (b : Bool) : (setHostIE b s).reads = s.reads := rfl
@[simp] theorem setHostIE_returns (b : Bool) : (setHostIE b s).returns = s.returns := rfl

@[simp] theorem pendIrq_cfg : (pendIrq s).cfg = s.cfg := rfl
@[simp] theorem pendIrq_stateReg : (pendIrq s).stateReg = s.stateReg := rfl
@[simp] theorem pendIrq_nword : (pendIrq s).nword = s.nword := rfl
@[simp] theorem pendIrq_iword : (pendIrq s).iword = s.iword := rfl
@[simp] theorem pendIrq_sym : (pendIrq s).sym = s.sym := rfl
@[simp] theorem pendIrq_busy : (pendIrq s).busy = s.busy := rfl
@[simp] theorem pendIrq_txq : (pendIrq s).txq = s.txq := rfl
@[simp] theorem pendIrq_wave : (pendIrq s).wave = s.wave := rfl
@[simp] theorem pendIrq_mark : (pendIrq s).mark = s.mark := rfl
@[simp] theorem pendIrq_port : (pendIrq s).port = s.port := rfl
@[simp] theorem pendIrq_hostIE : (pendIrq s).hostIE = s.hostIE := rfl
@[simp] theorem pendIrq_irqPending : (pendIrq s).irqPending = s.irqPending + 1 := rfl
@[simp] theorem pendIrq_irqTaken : (pendIrq s).irqTaken = s.irqTaken := rfl
@[simp] theorem pendIrq_host : (pendIrq s).host = s.host := rfl
@[simp] theorem pendIrq_inputs : (pendIrq s).inputs = s.inputs := rfl
@[simp] theorem pendIrq_reads : (pendIrq s).reads = s.reads := rfl
@[simp] theorem pendIrq_returns : (pendIrq s).returns = s.returns := rfl

@[simp] theorem takeIrq_cfg : (takeIrq s).cfg = s.cfg := rfl
@[simp] theorem takeIrq_stateReg : (takeIrq s).stateReg = s.stateReg := rfl
@[simp] theorem takeIrq_nword : (takeIrq s).nword = s.nword := rfl
@[simp] theorem takeIrq_iword : (takeIrq s).iword = s.iword := rfl
@[simp] theorem takeIrq_sym : (takeIrq s).sym = s.sym := rfl
@[simp] theorem takeIrq_busy : (takeIrq s).busy = s.busy := rfl
@[simp] theorem takeIrq_txq : (takeIrq s).txq = s.txq := rfl
@[simp] theorem takeIrq_wave : (takeIrq s).wave = s.wave := rfl
@[simp] theorem takeIrq_mark : (takeIrq s).mark = s.mark := rfl
@[simp] theorem takeIrq_port : (takeIrq s).port = s.port := rfl
@[simp] theorem takeIrq_hostIE : (takeIrq s).hostIE = s.hostIE := rfl
@[simp] theorem takeIrq_irqPending : (takeIrq s).irqPending = s.irqPending - 1 := rfl
@[simp] theorem takeIrq_irqTaken : (takeIrq s).irqTaken = s.irqTaken + 1 := rfl
@[simp] theorem takeIrq_host : (takeIrq s).host = s.host := rfl
@[simp] theorem takeIrq_inputs : (takeIrq s).inputs = s.inputs := rfl
@[simp] theorem takeIrq_reads : (takeIrq s).reads = s.reads := rfl
@[simp] theorem takeIrq_returns : (takeIrq s).returns = s.returns := rfl

@[simp] theorem setHost_cfg (h : HostState) : (setHost h s).cfg = s.cfg := rfl
@[simp] theorem setHost_stateReg (h : HostState) : (setHost h s).stateReg = s.stateReg := rfl
@[simp] theorem setHost_nword (h : HostState) : (setHost h s).nword = s.nword := rfl
@[simp] theorem setHost_iword (h : HostState) : (setHost h s).iword = s.iword := rfl
@[simp] theorem setHost_sym (h : HostState) : (setHost h s).sym = s.sym := rfl
@[simp] theorem setHost_busy (h : HostState) : (setHost h s).busy = s.busy := rfl
@[simp] theorem setHost_txq (h : HostState) : (setHost h s).txq = s.txq := rfl
@[simp] theorem setHost_wave (h : HostState) : (setHost h s).wave = s.wave := rfl
@[simp] theorem setHost_mark (h : HostState) : (setHost h s).mark = s.mark := rfl
@[simp] theorem setHost_port (h : HostState) : (setHost h s).port = s.port := rfl
@[simp] theorem setHost_hostIE (h : HostState) : (setHost h s).hostIE = s.hostIE := rfl
@[simp] theorem setHost_irqPending (h : HostState) : (setHost h s).irqPending = s.irqPending := rfl
@[simp] theorem setHost_irqTaken (h : HostState) : (setHost h s).irqTaken = s.irqTaken := rfl
@[simp] theorem setHost_host (h : HostState) : (setHost h s).host = h := rfl
@[simp] theorem setHost_inputs (h : HostState) : (setHost h s).inputs = s.inputs := rfl
@[simp] theorem setHost_reads (h : HostState) : (setHost h s).reads = s.reads := rfl
@[simp] theorem setHost_returns (h : HostState) : (setHost h s).returns = s.returns := rfl

@[simp] theorem emitSegment_cfg (seg : Segment) (rest : List Segment) : (emitSegment seg rest s).cfg = s.cfg := rfl
@[simp] theorem emitSegment_stateReg (seg : Segment) (rest : List Segment) :
    (emitSegment seg rest s).stateReg = s.stateReg := rfl
@[simp] theorem emitSegment_nword (seg : Segment) (rest : List Segment) :
    (emitSegment seg rest s).nword = s.nword := rfl
@[simp] theorem emitSegment_iword (seg : Segment) (rest : List Segment) :
    (emitSegment seg rest s).iword = s.iword := rfl
@[simp] theorem emitSegment_sym (seg : Segment) (rest : List Segment) : (emitSegment seg rest s).sym = s.sym := rfl
@[simp] theorem emitSegment_busy (seg : Segment) (rest : List Segment) : (emitSegment seg rest s).busy = s.busy := rfl
@[simp] theorem emitSegment_txq (seg : Segment) (rest : List Segment) : (emitSegment seg rest s).txq = rest := rfl
@[simp] theorem emitSegment_wave (seg : Segment) (rest : List Segment) :
    (emitSegment seg rest s).wave = s.wave ++ [seg] := rfl
@[simp] theorem emitSegment_mark (seg : Segment) (rest : List Segment) : (emitSegment seg rest s).mark = s.mark := rfl
@[simp] theorem emitSegment_port (seg : Segment) (rest : List Segment) : (emitSegment seg rest s).port = s.port := rfl
@[simp] theorem emitSegment_hostIE (seg : Segment) (rest : List Segment) :
    (emitSegment seg rest s).hostIE = s.hostIE := rfl
@[simp] theorem emitSegment_irqPending (seg : Segment) (rest : List Segment) :
    (emitSegment seg rest s).irqPending = s.irqPending := rfl
@[simp] theorem emitSegment_irqTaken (seg : Segment) (rest : List Segment) :
    (emitSegment seg rest s).irqTaken = s.irqTaken := rfl
@[simp] theorem emitSegment_host (seg : Segment) (rest : List Segment) : (emitSegment seg rest s).host = s.host := rfl
@[simp] theorem emitSegment_inputs (seg : Segment) (rest : List Segment) :
    (emitSegment seg rest s).inputs = s.inputs := rfl
@[simp] theorem emitSegment_reads (seg : Segment) (rest : List Segment) :
    (emitSegment seg rest s).reads = s.reads := rfl
@[simp] theorem emitSegment_returns (seg : Segment) (rest : List Segment) :
    (emitSegment seg rest s).returns = s.returns := rfl

@[simp] theorem presentWord_cfg (w : CmdWord) : (presentWord w s).cfg = s.cfg := rfl
@[simp] theorem presentWord_stateReg (w : CmdWord) : (presentWord w s).stateReg = s.stateReg := rfl
@[simp] theorem presentWord_nword (w : CmdWord) : (presentWord w s).nword = s.nword := rfl
@[simp] theorem presentWord_iword (w : CmdWord) : (presentWord w s).iword = s.iword := rfl
@[simp] theorem presentWord_sym (w : CmdWord) : (presentWord w s).sym = s.sym := rfl
@[simp] theorem presentWord_busy (w : CmdWord) : (presentWord w s).busy = false := rfl
@[simp] theorem presentWord_txq (w : CmdWord) : (presentWord w s).txq = [] := rfl
@[simp] theorem presentWord_wave (w : CmdWord) : (presentWord w s).wave = s.wave := rfl
@[simp] theorem presentWord_mark (w : CmdWord) : (presentWord w s).mark = none := rfl
@[simp] theorem presentWord_port (w : CmdWord) : (presentWord w s).port = some w := rfl
@[simp] theorem presentWord_hostIE (w : CmdWord) : (presentWord w s).hostIE = s.hostIE := rfl
@[simp] theorem presentWord_irqPending (w : CmdWord) : (presentWord w s).irqPending = 0 := rfl
@[simp] theorem presentWord_irqTaken (w : CmdWord) : (presentWord w s).irqTaken = s.irqTaken := rfl
@[simp] theorem presentWord_host (w : CmdWord) : (presentWord w s).host = s.host := rfl
@[simp] theorem presentWord_inputs (w : CmdWord) : (presentWord w s).inputs = [] := rfl
@[simp] theorem presentWord_reads (w : CmdWord) : (presentWord w s).reads = s.reads := rfl
@[simp] theorem presentWord_returns (w : CmdWord) : (presentWord w s).returns = s.returns := rfl

@[simp] theorem resetBlock_cfg : (resetBlock s).cfg = s.cfg := rfl
@[simp] theorem resetBlock_stateReg :
    (resetBlock s).stateReg = { temp := 20, mode := 0, fan := 1, ton := 0, toff := 0 } := rfl
@[simp] theorem resetBlock_nword : (resetBlock s).nword = .unset := rfl
@[simp] theorem resetBlock_iword : (resetBlock s).iword = .unset := rfl
@[simp] theorem resetBlock_sym : (resetBlock s).sym = Vector.replicate 48 .unset := rfl
@[simp] theorem resetBlock_busy : (resetBlock s).busy = false := rfl
@[simp] theorem resetBlock_txq : (resetBlock s).txq = [] := rfl
@[simp] theorem resetBlock_wave : (resetBlock s).wave = if s.busy then s.wave else [] := rfl
@[simp] theorem resetBlock_mark : (resetBlock s).mark = none := rfl
@[simp] theorem resetBlock_port : (resetBlock s).port = s.port := rfl
@[simp] theorem resetBlock_hostIE : (resetBlock s).hostIE = s.hostIE := rfl
@[simp] theorem resetBlock_irqPending : (resetBlock s).irqPending = s.irqPending := rfl
@[simp] theorem resetBlock_irqTaken : (resetBlock s).irqTaken = s.irqTaken := rfl
@[simp] theorem resetBlock_host : (resetBlock s).host = s.host := rfl
@[simp] theorem resetBlock_inputs : (resetBlock s).inputs = s.inputs := rfl
@[simp] theorem resetBlock_reads : (resetBlock s).reads = s.reads := rfl
@[simp] theorem resetBlock_returns : (resetBlock s).returns = s.returns := rfl

end

@[simp] theorem resetWith_cfg (c : WfCfg) : (State.resetWith c).cfg = c := rfl
@[simp] theorem resetWith_stateReg (c : WfCfg) : (State.resetWith c).stateReg = { temp := 20, mode := 0, fan := 1, ton := 0, toff := 0 } := rfl
@[simp] theorem resetWith_nword (c : WfCfg) : (State.resetWith c).nword = .unset := rfl
@[simp] theorem resetWith_iword (c : WfCfg) : (State.resetWith c).iword = .unset := rfl
@[simp] theorem resetWith_sym (c : WfCfg) : (State.resetWith c).sym = Vector.replicate 48 .unset := rfl
@[simp] theorem resetWith_busy (c : WfCfg) : (State.resetWith c).busy = false := rfl
@[simp] theorem resetWith_txq (c : WfCfg) : (State.resetWith c).txq = [] := rfl
@[simp] theorem resetWith_wave (c : WfCfg) : (State.resetWith c).wave = [] := rfl
@[simp] theorem resetWith_mark (c : WfCfg) : (State.resetWith c).mark = none := rfl
@[simp] theorem resetWith_port (c : WfCfg) : (State.resetWith c).port = none := rfl
@[simp] theorem resetWith_hostIE (c : WfCfg) : (State.resetWith c).hostIE = true := rfl
@[simp] theorem resetWith_irqPending (c : WfCfg) : (State.resetWith c).irqPending = 0 := rfl
@[simp] theorem resetWith_irqTaken (c : WfCfg) : (State.resetWith c).irqTaken = 0 := rfl
@[simp] theorem resetWith_host (c : WfCfg) : (State.resetWith c).host = HostState.initial := rfl
@[simp] theorem resetWith_inputs (c : WfCfg) : (State.resetWith c).inputs = [] := rfl
@[simp] theorem resetWith_reads (c : WfCfg) : (State.resetWith c).reads = [] := rfl
@[simp] theorem resetWith_returns (c : WfCfg) : (State.resetWith c).returns = [] := rfl

end Sys2Proof.Machine
end

