-- ==== Sys2Proof/Laws/Ops.lean ====
section
/-! SUPPORT. For each shared operation, one lemma that says all it can do. -/

namespace Sys2Proof.Machine

/-! ### Words -/

@[simp] theorem zext24_getLsbD (n k : Nat) : (zext24 n).getLsbD k = (decide (k < 24) && n.testBit k) :=
  BitVec.getLsbD_ofNat 24 n k

@[simp] theorem zext24_getElem (n k : Nat) (h : k < 24) : (zext24 n)[k] = n.testBit k := by
  simp [← BitVec.getLsbD_eq_getElem, h]

/-! ### Configuration -/

theorem WfCfg.passes (w : WfCfg) (k : CfgCheck) : passes w.cfg k = true := by
  have h := w.ok
  simp only [failedCheck, List.find?_eq_none, Bool.not_eq_true', Bool.not_eq_false] at h
  exact h k (by cases k <;> simp)

theorem WfCfg.marks_pos (w : WfCfg) : 1 ≤ w.cfg.hdrMarkCyc ∧ 1 ≤ w.cfg.bitMarkCyc := by
  have h := w.passes .marks
  simp only [Machine.passes, chkMarks, Bool.and_eq_true, decide_eq_true_eq] at h
  exact ⟨h.1.1.1, h.1.1.2⟩

theorem powerUp_next {c : Cfg} {t : State} (h : powerUp c = .next t) :
    ∃ ok : failedCheck c = none, t = State.resetWith ⟨c, ok⟩ := by
  unfold powerUp at h
  split at h
  · cases h
  · rename_i ok
    cases h
    exact ⟨ok, rfl⟩

/-! ### Table lookup -/

theorem lookup_of_lt {n : Nat} (t : Vector Nat n) (fallback : Nat) {k : Nat} (h : k < n) :
    lookup t fallback k = t[k] := dif_pos h

theorem lookup_of_not_lt {n : Nat} (t : Vector Nat n) (fallback : Nat) {k : Nat} (h : ¬ k < n) :
    lookup t fallback k = fallback := dif_neg h

/-! ### The symbol buffer -/

theorem expand_normal (n i : Word24) (g b : Nat) (hg : g < 3) (hb : b < 8) :
    (expand n i)[16 * g + b] = n.getLsbD (23 - 8 * g - b) := by
  have h1 : (16 * g + b) / 16 = g := by omega
  have h2 : (16 * g + b) % 16 = b := by omega
  simp [expand, h1, h2, hb]

theorem expand_inverted (n i : Word24) (g b : Nat) (hg : g < 3) (hb : b < 8) :
    (expand n i)[16 * g + 8 + b] = i.getLsbD (23 - 8 * g - b) := by
  have h1 : (16 * g + 8 + b) / 16 = g := by omega
  have h2 : (16 * g + 8 + b) % 16 = 8 + b := by omega
  simp [expand, h1, h2]

theorem halfWritten_getElem (h : BitVec 1) (data : BitVec 24) (sym : Vector (Reg Bool) 48) (k : Fin 48) :
    (halfWritten h data sym)[k] =
      if k.val / 24 = h.toNat then .val (data.getLsbD (23 - k.val % 24)) else sym[k] := by
  simp [halfWritten]

theorem readCells_ok_iff (k : Nat) (cells : List (Reg Bool)) (bs : List Bool) :
    readCells k cells = .ok bs ↔ cells = bs.map .val := by
  induction cells generalizing k bs with
  | nil => cases bs <;> simp [readCells]
  | cons c cells ih =>
    cases c with
    | unset => cases bs <;> simp [readCells, raiseUnset]
    | val b =>
      simp only [readCells]
      cases hr : readCells (k + 1) cells with
      | ok bs' =>
        rw [ih] at hr
        subst hr
        cases bs with
        | nil => simp
        | cons b' bs =>
          simp [List.map_inj_right (fun a b => Reg.val.inj)]
      | error f =>
        cases bs with
        | nil => simp
        | cons b' bs =>
          have hn := (ih (k + 1) bs).not.mp (by simp [hr])
          simp [hn]

theorem readCells_error_iff (k : Nat) (cells : List (Reg Bool)) (f : Fault) :
    readCells k cells = .error f ↔
      ∃ (bs : List Bool) (rest : List (Reg Bool)),
        cells = bs.map .val ++ .unset :: rest ∧ f = .unsetRead (.sym (k + bs.length)) := by
  induction cells generalizing k with
  | nil => simp [readCells]
  | cons c cells ih =>
    cases c with
    | unset =>
      simp only [readCells, raiseUnset, Except.error.injEq]
      constructor
      · rintro rfl
        exact ⟨[], cells, rfl, rfl⟩
      · rintro ⟨bs, rest, h, rfl⟩
        cases bs with
        | nil => rfl
        | cons b bs => simp at h
    | val b =>
      have hstep : readCells k (.val b :: cells) = .error f ↔ readCells (k + 1) cells = .error f := by
        simp only [readCells]
        cases readCells (k + 1) cells <;> simp
      rw [hstep, ih]
      constructor
      · rintro ⟨bs, rest, rfl, rfl⟩
        exact ⟨b :: bs, rest, rfl, by simp; omega⟩
      · rintro ⟨bs, rest, h, rfl⟩
        cases bs with
        | nil => simp at h
        | cons b' bs =>
          simp at h
          exact ⟨bs, rest, h.2, by simp; omega⟩

/-! ### The meanings -/

theorem startTx_next {len : BitVec 6} {q : List Bool → List Segment} {s t : State}
    (h : startTx len q s = .next t) :
    len.toNat ≤ 48 ∧ ∃ bs, readSymbols len.toNat s = .ok bs ∧ t = loadTx (q bs) s := by
  unfold startTx at h
  split at h
  · rename_i hl
    split at h
    · rename_i bs hb
      cases h
      exact ⟨hl, bs, hb, rfl⟩
    · cases h
  · cases h

/-- Everything a command can do: the state it leaves is one of five writes of the state it found. -/
theorem exec_next {i : Instr} {s t : State} (h : exec i s = .next t) :
    (∃ r, t = writeState r s) ∨ (∃ n m, t = writeWords n m s) ∨ (∃ hf d, t = writeHalf hf d s) ∨
      (∃ bs hdr, t = loadTx (frame s.cfg.cfg bs hdr) s) ∨ (∃ bs r, t = loadTx (transmitQueue s.cfg.cfg bs r) s) := by
  cases i with
  | setstate => cases h; exact .inl ⟨_, rfl⟩
  | encode => cases h; exact .inr (.inl ⟨_, _, rfl⟩)
  | encodeSpecial sc =>
    simp only [exec, execEncodeSpecial] at h
    split at h
    · cases h; exact .inr (.inl ⟨_, _, rfl⟩)
    · cases h
  | loadsym => cases h; exact .inr (.inr (.inl ⟨_, _, rfl⟩))
  | transmit r len =>
    obtain ⟨-, bs, -, rfl⟩ := startTx_next h
    exact .inr (.inr (.inr (.inr ⟨bs, r == 1, rfl⟩)))
  | transmitNh len =>
    obtain ⟨-, bs, -, rfl⟩ := startTx_next h
    exact .inr (.inr (.inr (.inl ⟨bs, false, rfl⟩)))

/-! ### The agents -/

theorem transmitterStep_cases (s : State) :
    (∃ seg rest, s.txq = seg :: rest ∧ transmitterStep s = emitSegment seg rest s) ∨
      (s.txq = [] ∧ transmitterStep s = clearBusy s) := by
  unfold transmitterStep
  split
  · rename_i seg rest h
    exact .inl ⟨seg, rest, h, rfl⟩
  · rename_i h
    exact .inr ⟨h, rfl⟩

theorem accept_next {w : CmdWord} {s t : State} (h : accept w s = .next t) :
    ∃ i, decode w = .ok i ∧ exec i (takePort s) = .next t := by
  unfold accept at h
  split at h
  · rename_i i hi
    exact ⟨i, hi, h⟩
  · cases h

/-- Everything the block and a passive host can do in one step. -/
theorem blockStep_next {s t : State} (h : blockStep s = .next t) :
    (s.busy = true ∧ t = transmitterStep s) ∨ (s.busy = false ∧ irqReady s = true ∧ t = takeIrq s) ∨
      (s.busy = false ∧ irqReady s = false ∧ ∃ w i, s.port = some w ∧ decode w = .ok i ∧
        exec i (takePort s) = .next t) ∨
      (s.busy = false ∧ irqReady s = false ∧ s.port = none ∧ t = s) := by
  unfold blockStep at h
  split at h
  · rename_i hb
    cases h
    exact .inl ⟨hb, rfl⟩
  · rename_i hb
    have hb : s.busy = false := by simpa using hb
    split at h
    · rename_i hq
      cases h
      exact .inr (.inl ⟨hb, hq, rfl⟩)
    · rename_i hq
      have hq : irqReady s = false := by simpa using hq
      split at h
      · rename_i w hw
        obtain ⟨i, hi, he⟩ := accept_next h
        exact .inr (.inr (.inl ⟨hb, hq, w, i, hw, hi, he⟩))
      · rename_i hn
        cases h
        exact .inr (.inr (.inr ⟨hb, hq, hn, rfl⟩))

theorem hostHeld_eq_false {s : State} (h : hostHeld s = false) : s.port = none ∧ irqReady s = false := by
  simpa [hostHeld] using h

theorem whenFree_next {t s u : State} (h : whenFree t s = .next u) :
    (HostFree s ∧ u = t) ∨ blockStep s = .next u := by
  unfold whenFree at h
  split at h
  · exact .inr h
  · rename_i hf
    cases h
    simp only [Bool.or_eq_true, not_or, Bool.not_eq_true] at hf
    exact .inl ⟨⟨hf.1, hostHeld_eq_false hf.2⟩, rfl⟩

/-- Everything an act of the host or of the world, with the inputs that follow it, can do itself, when it does not wait
for the block. -/
inductive HostMove (s : State) (rest : List HostAct) : HostAct → State → Prop
  | hold (w : CmdWord) (hb : s.busy = true) (hp : s.port = none) :
      HostMove s rest (.write w) (putPort w (setInputs rest s))
  | issue (w : CmdWord) (i : Instr) (t : State) (hf : HostFree s) (hi : decode w = .ok i)
      (he : exec i (takePort (setInputs rest s)) = .next t) : HostMove s rest (.write w) t
  | awaited (hf : HostFree s) : HostMove s rest .await (setInputs rest s)
  | returned (o : HostOp) (hf : HostFree s) :
      HostMove s rest (.ret o) (noteReturn o (hostReturns o s.host) (setInputs rest s))
  | noted (sel : ReadSel) (v : ReadValue) (hv : readView s sel = .ok v) :
      HostMove s rest (.read sel) (noteRead v (setInputs rest s))
  | enable (b : Bool) (hf : HostFree s) : HostMove s rest (.setIE b) (setHostIE b (setInputs rest s))
  | pend : HostMove s rest .irq (pendIrq (setInputs rest s))
  | reset : HostMove s rest .reset (resetBlock (setInputs rest s))
  | operate (o : HostOp) (hf : HostFree s) :
      HostMove s rest (.op o) (setHost (hostOperate Config.hostCfg o s.host).1
        (setInputs (hostWrites o (hostOperate Config.hostCfg o s.host).2 ++ rest) s))

/-- Everything an act of the host or of the world can do in one step: its own effect, or the block's while it waits. -/
theorem hostStep_next {a : HostAct} {rest : List HostAct} {s t : State} (h : hostStep a rest s = .next t) :
    HostMove s rest a t ∨ (a = .pass ∧ blockStep (setInputs rest s) = .next t) ∨ blockStep s = .next t := by
  cases a with
  | pass => exact .inr (.inl ⟨rfl, h⟩)
  | write w =>
    simp only [hostStep, hostWrite] at h
    split at h
    · exact .inr (.inr h)
    · rename_i hh
      obtain ⟨hp, hq⟩ := hostHeld_eq_false (by simpa using hh)
      split at h
      · rename_i hb
        cases h
        exact .inl (.hold w hb hp)
      · rename_i hb
        obtain ⟨i, hi, he⟩ := accept_next h
        exact .inl (.issue w i t ⟨by simpa using hb, hp, hq⟩ hi he)
  | await =>
    rcases whenFree_next h with ⟨hf, rfl⟩ | h
    · exact .inl (.awaited hf)
    · exact .inr (.inr h)
  | ret o =>
    rcases whenFree_next h with ⟨hf, rfl⟩ | h
    · exact .inl (.returned o hf)
    · exact .inr (.inr h)
  | read sel =>
    simp only [hostStep, hostRead] at h
    split at h
    · exact .inr (.inr h)
    · split at h
      · rename_i v hv
        cases h
        exact .inl (.noted sel v hv)
      · cases h
  | setIE b =>
    rcases whenFree_next h with ⟨hf, rfl⟩ | h
    · exact .inl (.enable b hf)
    · exact .inr (.inr h)
  | irq => cases h; exact .inl .pend
  | reset => cases h; exact .inl .reset
  | op o =>
    rcases whenFree_next h with ⟨hf, rfl⟩ | h
    · exact .inl (.operate o hf)
    · exact .inr (.inr h)

/-- Everything one step can do: nothing that is marked moves, and the rest is the host's or the block's. -/
theorem step_next {s t : State} (h : step s = .next t) :
    s.mark = none ∧ ((∃ a rest, s.inputs = a :: rest ∧ HostMove s rest a t) ∨
      (∃ rest, s.inputs = .pass :: rest ∧ blockStep (setInputs rest s) = .next t) ∨ blockStep s = .next t) := by
  unfold step machineStep at h
  split at h
  · rename_i m hm
    cases m <;> cases h
  · rename_i hm
    refine ⟨hm, ?_⟩
    unfold agentStep at h
    split at h
    · exact .inr (.inr h)
    · rename_i a rest ha
      rcases hostStep_next h with h | ⟨rfl, h⟩ | h
      · exact .inl ⟨a, rest, ha, h⟩
      · exact .inr (.inl ⟨rest, ha, h⟩)
      · exact .inr (.inr h)

/-- While the host waits, a step is the block's. -/
theorem step_of_hostWaits {s : State} (hm : s.mark = none) (hw : hostWaits s = true) : step s = blockStep s := by
  unfold step machineStep agentStep
  rw [hm]
  unfold hostWaits at hw
  cases hi : s.inputs with
  | nil => rfl
  | cons a rest =>
    rw [hi] at hw
    cases a <;> first | cases hw | skip
    all_goals simp only at hw
    all_goals simp only [hostStep, hostWrite, hostRead, hostOp, hostRet, whenFree, hw, if_true]

/-- A ready machine accepts the word on its port. -/
theorem step_of_ready {w : CmdWord} {s : State} (h : Ready w s) : step s = accept w s := by
  obtain ⟨hm, hw, hb, hq, hp⟩ := h
  rw [step_of_hostWaits hm hw]
  simp [blockStep, hb, hq, hp]

/-! ### Runs -/

theorem coreRun_zero (M : Host.Core) (s : M.State) : M.run 0 s = .next s := by rw [Host.Core.run]

theorem coreRun_succ (M : Host.Core) (n : Nat) {s t : M.State} (h : M.step s = .next t) :
    M.run (n + 1) s = M.run n t := by
  simp [Host.Core.run, h]

theorem run_zero (s : State) : Sys2Proof.core.run 0 s = .next s := coreRun_zero Sys2Proof.core s

/-- A run whose first step answers a next state goes on from it. -/
theorem run_succ {s t : State} (n : Nat) (h : step s = .next t) :
    Sys2Proof.core.run (n + 1) s = Sys2Proof.core.run n t := coreRun_succ Sys2Proof.core n h

end Sys2Proof.Machine
end

