-- ==== Sys2Proof/Laws/PerInstr.lean ====
section
/-! SUPPORT. A fact about every command's encoding, one lemma per constructor: its word carries its opcode. -/

namespace Sys2Proof

/-- The opcode of a command (spec/30_encoding.md R56). -/
def opcodeOf : Instr → BitVec 4
  | .setstate _ _ _ _ _ => 0x1
  | .encode => 0x2
  | .encodeSpecial _ => 0x3
  | .loadsym _ _ => 0x4
  | .transmit _ _ => 0x5
  | .transmitNh _ => 0x6

end Sys2Proof

namespace Sys2Proof.Laws.CarriesOpcode

/-- The word of a command has the command's opcode in bits 31..28. -/
def Statement (i : Instr) : Prop := opcode (encode i) = opcodeOf i

theorem setstate (temp : BitVec 5) (mode fan : BitVec 3) (ton toff : BitVec 6) : Statement (.setstate temp mode fan ton toff) := by
  simp only [Statement, opcode, field, Sys2Proof.encode, opcodeOf, place]
  ext k hk
  simp only [BitVec.getElem_extractLsb']
  interval_cases k <;> simp

theorem encode : Statement .encode := by unfold Statement; decide

theorem encodeSpecial (sc : BitVec 3) : Statement (.encodeSpecial sc) := by
  simp only [Statement, opcode, field, Sys2Proof.encode, opcodeOf, place]
  ext k hk
  simp only [BitVec.getElem_extractLsb']
  interval_cases k <;> simp

theorem loadsym (h : BitVec 1) (data : BitVec 24) : Statement (.loadsym h data) := by
  simp only [Statement, opcode, field, Sys2Proof.encode, opcodeOf, place]
  ext k hk
  simp only [BitVec.getElem_extractLsb']
  interval_cases k <;> simp

theorem transmit (r : BitVec 1) (len : BitVec 6) : Statement (.transmit r len) := by
  simp only [Statement, opcode, field, Sys2Proof.encode, opcodeOf, place]
  ext k hk
  simp only [BitVec.getElem_extractLsb']
  interval_cases k <;> simp

theorem transmitNh (len : BitVec 6) : Statement (.transmitNh len) := by
  simp only [Statement, opcode, field, Sys2Proof.encode, opcodeOf, place]
  ext k hk
  simp only [BitVec.getElem_extractLsb']
  interval_cases k <;> simp

end Sys2Proof.Laws.CarriesOpcode
end

