-- ==== Sys2Proof/Tests/Slice0.lean ====
section
/-! SUPPORT. Tests. Expected values are those of spec/95_test_vectors.md, which uses the invented configuration
`EXC` of its section 1 (not the protocol's), or are worked by hand from the rule named. -/

namespace Sys2Proof.Tests

open Sys2Proof.Machine

/-! ### The test configuration `EXC` (95_test_vectors.md section 1) -/

def excRaw : Cfg where
  hdr := 0xC3
  tempCode := #v[0, 1, 2, 3, 4, 5, 6, 7, 8, 9, 10, 11, 12, 13]
  noTempCode := 0xE
  modeCode := #v[2, 0, 1, 3, 1]
  fanCode := #v[0, 5, 4, 2, 1]
  tw := 6
  toffCode := Vector.ofFn fun i => i.val
  tonCode := Vector.ofFn fun i => if i.val = 0 then 0 else i.val + 20
  noTon := 0x3F
  tShift := 2
  mShift := 0
  fShift := 6
  offShift := 10
  onShift := 10
  tmask := 0x00FE00
  tflagPos := 15
  tonActive := 0x000200
  special := #v[0xC3F00F, 0xC3E01E, 0xC3D02D, 0xC3C03C, 0xC3B04B, 0xC3A05A]
  tempFallback := 0xF
  modeFallback := 2
  fanFallback := 5
  toffFallback := 0
  tonFallback := 0
  carrierHighNs := 8770
  carrierLowNs := 17546
  hdrMarkCyc := 170
  hdrSpaceNs := 4400000
  bitMarkCyc := 21
  oneSpaceNs := 1600000
  zeroSpaceNs := 550000
  stopMarkCyc := 21
  trailerSpaceNs := 5000000
  gapNs := 1000000

/-- `EXC` passes every check (section 1). -/
theorem test_exc_passes : failedCheck excRaw = none := by decide

def exc : WfCfg := ⟨excRaw, test_exc_passes⟩

/-- The machine at reset with `EXC`. -/
def start : State := State.resetWith exc

/-- A state after a step that answers a next state. -/
def nextOr (s : State) : Outcome → State
  | .next t => t
  | _ => s

/-- The state after a command has run on a state. -/
def run1 (i : Instr) (s : State) : State := nextOr s (exec i s)

/-- The machine with a list of inputs. -/
def feed (as : List HostAct) (s : State) : State := setInputs as s

/-- `STATE` set to a tuple of section 3. -/
def withTuple (temp : BitVec 5) (mode fan : BitVec 3) (ton toff : BitVec 6) : State :=
  writeState ⟨temp, mode, fan, ton, toff⟩ start

/-- The words `ENCODE` leaves, as numbers. -/
def words (s : State) : Reg Word24 × Reg Word24 := (s.nword, s.iword)

/-! ### The checks of R66 refuse a configuration that fails them -/

theorem test_chk_widths : failedCheck { excRaw with hdr := 256 } = some .widths := by decide
theorem test_chk_tw : failedCheck { excRaw with tw := 17 } = some .tw := by decide
theorem test_chk_below_hdr : failedCheck { excRaw with offShift := 11 } = some .belowHdr := by decide
theorem test_chk_disjoint : failedCheck { excRaw with mShift := 1 } = some .disjoint := by decide
theorem test_chk_on_span : failedCheck { excRaw with onShift := 19 } = some .onSpan := by decide
theorem test_chk_flag_in_mask : failedCheck { excRaw with tflagPos := 8 } = some .flagInMask := by decide
theorem test_chk_spaces : failedCheck { excRaw with zeroSpaceNs := 1600000 } = some .spaces := by decide
theorem test_chk_marks : failedCheck { excRaw with bitMarkCyc := 0 } = some .marks := by decide

/-! ### WellFormed refuses an ill-formed command, for each of its checks (R65, R67) -/

theorem test_wf_special_6 : wellFormed (.encodeSpecial 6) = false := by decide
theorem test_wf_special_5 : wellFormed (.encodeSpecial 5) = true := by decide
theorem test_wf_transmit_49 : wellFormed (.transmit 0 49) = false := by decide
theorem test_wf_transmit_nh_49 : wellFormed (.transmitNh 49) = false := by decide
theorem test_wf_transmit_48 : wellFormed (.transmit 1 48) = true := by decide

/-! ### Words written out bit by bit from the formats (R57 to R65) decode to their commands -/

/-- `setstate temp=22, mode=HEAT, fan=DEFAULT, ton=3, toff=35` (W3): opcode, zeros, TOFF, TON, FAN, MODE, TEMP. -/
theorem test_decode_setstate :
    decode 0b0001_00000_100011_000011_001_011_10110#32 = .ok (.setstate 22 3 1 3 35) := by decide
theorem test_decode_encode : decode 0b0010_0000000000000000000000000000#32 = .ok .encode := by decide
/-- `encspec TURBO` (X5). -/
theorem test_decode_special : decode 0b0011_0000000000000000000000000_101#32 = .ok (.encodeSpecial 5) := by decide
/-- `loadsym 1, 0xF00F0F` (L2). -/
theorem test_decode_loadsym :
    decode 0b0100_000_1_111100000000111100001111#32 = .ok (.loadsym 1 0xF00F0F) := by decide
/-- `tx 48, 1` (T2). -/
theorem test_decode_transmit : decode 0b0101_000000000000000000000_1_110000#32 = .ok (.transmit 1 48) := by decide
/-- `txnh 1` (N2). -/
theorem test_decode_transmit_nh : decode 0b0110_0000000000000000000000_000001#32 = .ok (.transmitNh 1) := by decide

/-- The refusals of 95_test_vectors.md: opcode first, then the must-be-0 bits (W6, W7, X8, X9, L4, F3, F4, F5). -/
theorem test_decode_reserved_opcode :
    [0x00000000#32, 0x70000000#32, 0x7FFFFFFF#32, 0xF0000030#32].map decode =
      List.replicate 4 (.error .reservedOpcode) := by decide
theorem test_decode_reserved_bits :
    [0x10800114#32, 0x18000000#32, 0x20000001#32, 0x30000008#32, 0x30800007#32, 0x42000000#32, 0x50000080#32,
      0x500000B1#32, 0x60000040#32].map decode = List.replicate 9 (.error .reservedBits) := by decide

theorem test_encode_words :
    [Instr.setstate 24 1 4 0 0, .encode, .encodeSpecial 4, .loadsym 0 0xC33C01, .transmit 1 48, .transmitNh 48].map
        encode = [0x10000438#32, 0x20000000#32, 0x30000004#32, 0x40C33C01#32, 0x50000070#32, 0x60000030#32] := by
  decide

/-- The host's questions: the decoder on a table word, and the first step after reset on a placed word. -/
theorem test_table_word : decodeTableWord 32 0x106546FF = some (.setstate 31 7 6 40 50) := by decide
theorem test_first_step :
    (nextOr State.reset (step (State.reset.withFetchWord 32 0x106546FF))).stateReg = ⟨31, 7, 6, 40, 50⟩ := by rfl
theorem test_first_step_encode :
    (nextOr State.reset (step (State.reset.withFetchWord 32 0x20000000))).port = none := by rfl

/-! ### One step of each command -/

/-- W4: every field out of range is stored as written. -/
theorem test_setstate_no_clamp : (run1 (.setstate 31 7 6 40 50) start).stateReg = ⟨31, 7, 6, 40, 50⟩ := by decide
/-- R80: writing `STATE` does not re-encode. -/
theorem test_setstate_keeps_words : words (run1 (.setstate 24 1 4 0 0) start) = (.unset, .unset) := by decide

/-- E1. -/
theorem test_encode_reset : words (run1 .encode start) = (.val 0xC3014E, .val 0x3CFEB1) := by decide
/-- E14: both timers, the on-code ORed over the copied flag. -/
theorem test_encode_timers :
    words (run1 .encode (withTuple 22 3 1 3 35)) = (.val 0xC38D57, .val 0x3CDEA8) := by decide

/-- X0 with active timers: still the plain complement. -/
theorem test_special_ignores_state :
    words (run1 (.encodeSpecial 0) (withTuple 22 3 1 3 35)) = (.val 0xC3F00F, .val 0x3C0FF0) := by decide
/-- X6. -/
theorem test_special_refused : exec (.encodeSpecial 6) start = .refused .reservedSpecial := by rfl

/-- L2: the second half is written, `DATA[23]` first; the first is kept. -/
theorem test_loadsym_high :
    (run1 (.loadsym 1 0xF00F0F) start).sym.toList = List.replicate 24 .unset ++
      [true, true, true, true, false, false, false, false, false, false, false, false, true, true, true, true,
        false, false, false, false, true, true, true, true].map .val := by decide
/-- L4's neighbour: half 0 leaves `SYM[24]` `UNSET`. -/
theorem test_loadsym_low : (run1 (.loadsym 0 0xC33C01) start).sym[24] = .unset := by decide

/-- T4: an empty frame twice, with the gap between. -/
theorem test_transmit_empty_twice :
    (run1 (.transmit 1 0) start).txq =
      [.mark 170, .space 4400000, .mark 21, .space 5000000, .space 1000000,
        .mark 170, .space 4400000, .mark 21, .space 5000000] := by decide
/-- F8. -/
theorem test_transmit_unset :
    exec (.transmit 0 25) (run1 (.loadsym 0 0xC33C01) start) = .fault (.unsetRead (.sym 24)) := by rfl

/-- N2. -/
theorem test_transmit_nh :
    (run1 (.transmitNh 1) (run1 .encode start)).txq = [.mark 21, .space 1600000, .mark 21, .space 5000000] := by
  decide +kernel
/-- F6. -/
theorem test_transmit_nh_long : exec (.transmitNh 49) start = .refused .lenRange := by rfl

/-! ### The other vectors -/

/-- The words of E2 to E16 that no test above has: FAN mode, fallbacks, each timer case. -/
theorem test_encode_vectors :
    [withTuple 24 1 4 0 0, withTuple 30 3 4 0 0, withTuple 5 4 3 0 0, withTuple 16 1 1 0 0, withTuple 20 1 2 0 5,
        withTuple 20 1 2 0 33, withTuple 20 1 1 35 0, withTuple 20 1 1 36 0, withTuple 31 7 6 40 50].map
        (fun s => words (run1 .encode s)) =
      [(.val 0xC3005C, .val 0x3CFFA3), (.val 0xC30077, .val 0x3CFF88), (.val 0xC300B9, .val 0x3CFF46),
        (.val 0xC3017C, .val 0x3CFE83), (.val 0xC3150C, .val 0x3CFEF3), (.val 0xC3850C, .val 0x3CFEF3),
        (.val 0xC3014C, .val 0x3CDEB3), (.val 0xC3014C, .val 0x3C02B3), (.val 0xC3017E, .val 0x3C0281)] := by
  decide

/-- The symbols of E1. -/
theorem test_expand :
    (expand 0xC3014E 0x3CFEB1).toList.map (fun b => cond b 1 0) =
      [1, 1, 0, 0, 0, 0, 1, 1, 0, 0, 1, 1, 1, 1, 0, 0, 0, 0, 0, 0, 0, 0, 0, 1, 1, 1, 1, 1, 1, 1, 1, 0,
        0, 1, 0, 0, 1, 1, 1, 0, 1, 0, 1, 1, 0, 0, 0, 1] := by decide

/-- T6's check sum: header, four 1 symbols, four 0 symbols, trailer. -/
theorem test_duration :
    totalNs excRaw (frame excRaw [true, true, false, false, false, false, true, true] true) = 27447444 := by decide

/-- `Mark(2)` on the pin (section 3.5). -/
theorem test_pin :
    pinSegment excRaw (.mark 2) = [⟨true, 8770⟩, ⟨false, 17546⟩, ⟨true, 8770⟩, ⟨false, 17546⟩] := by decide

/-- S3: on = 5, off requested 5 gives 6; on = 35, off requested 35 gives 34. -/
theorem test_collision : resolveOff 5 5 = 6 ∧ resolveOff 35 35 = 34 := by decide

/-- R20, R49: a read after an issued `ENCODE` reads what it wrote. -/
theorem test_read_follows_command :
    (nextOr start (step (nextOr start (step (feed [.write 0x20000000, .read .nword] start))))).reads =
      [.word 0xC3014E] := by decide

/-- R145: mode 5, fan 5 and timer 36 are corrected, mode 4, fan 4 and timer 35 are kept. -/
theorem test_arguments (p : HostCfg) :
    (modeArg p 5 = p.modeOutOfRange 5 ∧ fanArg p 5 = p.fanOutOfRange 5 ∧ timerArg p 36 = p.timerOutOfRange 36) ∧
    (modeArg p 4 = .fan ∧ fanArg p 4 = .high ∧ timerArg p 35 = 35 ∧ timerArg p (-1) = p.timerOutOfRange (-1)) := by
  refine ⟨⟨rfl, rfl, rfl⟩, rfl, rfl, rfl, rfl⟩

/-- R155: a powered unit's on-timer set back to 0 with the off-timer 0 powers it off. -/
theorem test_implicit_off (p : HostCfg) :
    (hostOperate p (.setTimerOn 0) { HostState.initial with powered := true, timerOn := 3 }).1.powered = false := by
  rfl

/-- S4: the words of power on with the default state. -/
theorem test_power_on (r : Bool) :
    ((hostPowerOn r HostState.initial).2.map encode).take 2 = [0x10000114#32, 0x20000000#32] := by
  cases r <;> rfl

/-! ### Witnesses: concrete values that meet the hypotheses of each statement together (Obligations.lean)

`wit_X` is for `Obligations.X`; a statement with several clauses has a value for each, at the ends of its range. -/

/-- The host holds a word and the block is ready for it. -/
theorem ready (w : CmdWord) (s : State) : Ready w (presentWord w s) := 
  ⟨rfl, rfl, rfl, by simp [irqReady, presentWord], rfl⟩

/-- A transmission of no symbols in progress: four segments left. -/
def sending : State := run1 (.transmit 0 0) start

/-- The same at its end: nothing left to emit. -/
def sent : State := { sending with txq := [] }

/-- Both words written and all symbols loaded. -/
def encoded : State := run1 .encode start

/-- Half of the buffer loaded. -/
def halfLoaded : State := run1 (.loadsym 0 0xC33C01) start

theorem start_inv (w : CmdWord) : Inv (presentWord w start) := by
  refine ⟨fun h => absurd rfl h, rfl, fun h => Bool.noConfusion h, fun j k _ => ?_, rfl⟩
  simp [presentWord, start]

theorem encoded_written (k : Fin 48) : encoded.sym[k].isUnset = false := by
  have h : encoded.sym = (expand 0xC3014E 0x3CFEB1).map .val := by
    show (run1 .encode start).sym = _
    rfl
  simp [h, Reg.isUnset]

theorem encoded_inv (w : CmdWord) : Inv (presentWord w encoded) :=
  ⟨fun h => absurd rfl h, rfl, fun _ => encoded_written,
    fun j k _ => (encoded_written j).trans (encoded_written k).symm, rfl⟩

theorem wit_DecodedWordIsTheCommandsEncoding : decode 0x5000006F = .ok (.transmit 1 47) := by decide

/-- A word on the port, with no input, with a host that waits and with `pass`; and a word issued now. -/
theorem wit_StepRunsTheDecodedCommand :
    (∀ as ∈ [[], [.write 0x30000000], [.read .busy], [.await], [.ret .tempUp], [.setIE false], [.op .tempUp]],
      let s := feed as (presentWord 0x20000000 start)
      s.mark = none ∧ s.busy = false ∧ irqReady s = false ∧ s.port = some 0x20000000 ∧ hostWaits s = true) ∧
    (feed [.pass] (presentWord 0x20000000 start)).inputs = .pass :: [] ∧
    (let s := feed [.write 0x20000000] start
     s.mark = none ∧ s.busy = false ∧ irqReady s = false ∧ s.port = none ∧ s.inputs = .write 0x20000000 :: []) ∧
    decode 0x20000000 = .ok .encode := by decide

theorem wit_StepRefusesAReservedWord :
    Ready 0x70000000 (presentWord 0x70000000 start) ∧ decode 0x70000000 = .error .reservedOpcode ∧
    Ready 0x50000080 (presentWord 0x50000080 start) ∧ decode 0x50000080 = .error .reservedBits ∧
    (let s := feed [.write 0x70000000] start
     s.mark = none ∧ HostFree s ∧ s.inputs = .write 0x70000000 :: []) :=
  ⟨ready _ _, by decide, ready _ _, by decide, rfl, ⟨rfl, rfl, rfl⟩, rfl⟩

theorem wit_MarksAreSetAloneAndKept :
    step (presentWord 0x00000000 start) = .refused .reservedOpcode ∧
    step (feed [.read .nword] start) = .fault (.unsetRead .nword) := ⟨rfl, rfl⟩

theorem wit_FaultsAreUnsetReads :
    (feed [.read .nword] start).mark = none ∧ step (feed [.read .nword] start) = .fault (.unsetRead .nword) ∧
    step (feed [.read .iword] start) = .fault (.unsetRead .iword) ∧
    step (feed [.read (.sym 47)] start) = .fault (.unsetRead (.sym 47)) ∧
    step (presentWord 0x50000019 halfLoaded) = .fault (.unsetRead (.sym 24)) ∧
    step (feed [.write 0x60000001] start) = .fault (.unsetRead (.sym 0)) := ⟨rfl, rfl, rfl, rfl, rfl, rfl⟩

theorem wit_CommandsRefuseExactlyIllFormedOperands :
    exec (.encodeSpecial 7) start = .refused .reservedSpecial ∧ exec (.transmit 0 63) start = .refused .lenRange ∧
    exec (.transmitNh 49) start = .refused .lenRange := ⟨rfl, rfl, rfl⟩

theorem wit_SetstateWordOutcome :
    Ready 0x107FFFFF (presentWord 0x107FFFFF start) ∧ (0x107FFFFF#32).extractLsb' 28 4 = 1 ∧
    (0x107FFFFF#32).extractLsb' 23 5 = 0 ∧
    Ready 0x10800000 (presentWord 0x10800000 start) ∧ (0x10800000#32).extractLsb' 28 4 = 1 ∧
    (0x10800000#32).extractLsb' 23 5 ≠ 0 :=
  ⟨ready _ _, by decide, by decide, ready _ _, by decide, by decide⟩

/-- Mode FAN; temperatures 17 and 30; 16 and 31. -/
theorem wit_TemperatureCodeRule :
    (tCode excRaw ⟨20, 4, 1, 0, 0⟩ = 0xE) ∧
    ((17#5).toNat = 17 + (0 : Fin 14).val ∧ tCode excRaw ⟨17, 0, 1, 0, 0⟩ = 0) ∧
    ((30#5).toNat = 17 + (13 : Fin 14).val ∧ tCode excRaw ⟨30, 5, 1, 0, 0⟩ = 13) ∧
    ((16#5).toNat < 17 ∧ tCode excRaw ⟨16, 0, 1, 0, 0⟩ = 0xF) ∧
    (30 < (31#5).toNat ∧ tCode excRaw ⟨31, 0, 1, 0, 0⟩ = 0xF) := by decide

/-- Indices 0, 4 and 5 of the modes and fan speeds, 0, 1, 35 and 36 of the timers. -/
theorem wit_ModeFanAndTimerCodeRules :
    (mCode excRaw 0 = 2 ∧ mCode excRaw 4 = 1 ∧ mCode excRaw 5 = 2) ∧
    (fCode excRaw 0 = 0 ∧ fCode excRaw 4 = 1 ∧ fCode excRaw 5 = 5) ∧
    (oCode excRaw 0 = 0 ∧ oCode excRaw 35 = 35 ∧ oCode excRaw 36 = 0) ∧
    (onCode excRaw 0 = 0x3F ∧ onCode excRaw 1 = 21 ∧ onCode excRaw 35 = 55 ∧ onCode excRaw 36 = 0) := by decide

/-- In `EXC` bit 9 is in no field; bits 15 and 0 are. -/
theorem wit_NormalWordSpansHoldTheirCodes :
    ¬ (excRaw.tShift ≤ 9 ∧ 9 < excRaw.tShift + 4) ∧ ¬ (excRaw.mShift ≤ 9 ∧ 9 < excRaw.mShift + 2) ∧
    ¬ (excRaw.fShift ≤ 9 ∧ 9 < excRaw.fShift + 3) ∧ ¬ (excRaw.offShift ≤ 9 ∧ 9 < excRaw.offShift + excRaw.tw) := by
  decide

/-- No timer; the off-timer alone (E6's neighbour); the on-timer alone. -/
theorem wit_InvertedWordBits :
    invertedWord excRaw 0xC3014E 0 0 = 0x3CFEB1 ∧ ((0#6) ≠ 0 ∨ (5#6) ≠ 0) ∧ ((35#6) ≠ 0 ∨ (0#6) ≠ 0) := by decide

theorem wit_EncodeWordOutcome :
    Ready 0x20000000 (presentWord 0x20000000 start) ∧ (0x20000000#32).extractLsb' 28 4 = 2 ∧
    (0x20000000#32).extractLsb' 0 28 = 0 ∧
    Ready 0x28000000 (presentWord 0x28000000 start) ∧ (0x28000000#32).extractLsb' 28 4 = 2 ∧
    (0x28000000#32).extractLsb' 0 28 ≠ 0 :=
  ⟨ready _ _, by decide, by decide, ready _ _, by decide, by decide⟩

/-- The same `STATE`, different buffers and words. -/
theorem wit_EncoderWritesDependOnlyOnItsInputs :
    start.cfg = halfLoaded.cfg ∧ start.stateReg = halfLoaded.stateReg ∧
    exec .encode start = .next (run1 .encode start) ∧ exec .encode halfLoaded = .next (run1 .encode halfLoaded) ∧
    exec (.encodeSpecial 5) start = .next (run1 (.encodeSpecial 5) start) ∧
    exec (.encodeSpecial 5) halfLoaded = .next (run1 (.encodeSpecial 5) halfLoaded) := ⟨rfl, rfl, rfl, rfl, rfl, rfl⟩

/-- Both cases of the first clause; for the second, bit 8, the last below `TMASK`, and bit 23. -/
theorem wit_ComplementLaw :
    (exec .encode start = .next encoded ∧ start.stateReg.ton = 0 ∧ start.stateReg.toff = 0) ∧
    exec (.encodeSpecial 0) (withTuple 22 3 1 3 35) = .next (run1 (.encodeSpecial 0) (withTuple 22 3 1 3 35)) ∧
    ((3#6) ≠ 0 ∨ (0#6) ≠ 0) ∧
    (∀ k ∈ [8, 23], excRaw.tmask.testBit k = false ∧ excRaw.tonActive.testBit k = false ∧
      ¬ (excRaw.onShift ≤ k ∧ k < excRaw.onShift + excRaw.tw)) := ⟨⟨rfl, rfl, rfl⟩, rfl, by decide, by decide⟩

theorem wit_SpecialWritesConstantAndComplement :
    (0#3).toNat = (0 : Fin 6).val ∧ (5#3).toNat = (5 : Fin 6).val := by decide

theorem wit_SpecialWordOutcome :
    (∀ w ∈ [0x30000000#32, 0x30000005, 0x30000006, 0x30000008, 0x38000007],
      Ready w (presentWord w start)) ∧
    [0x30000000#32, 0x30000005, 0x30000006, 0x30000008, 0x38000007].map (·.extractLsb' 28 4) = List.replicate 5 3 ∧
    (0x30000000#32).extractLsb' 3 25 = 0 ∧ ((0x30000000#32).extractLsb' 0 3).toNat = (0 : Fin 6).val ∧
    (0x30000005#32).extractLsb' 3 25 = 0 ∧ ((0x30000005#32).extractLsb' 0 3).toNat = (5 : Fin 6).val ∧
    (0x30000006#32).extractLsb' 3 25 = 0 ∧ 5 < ((0x30000006#32).extractLsb' 0 3).toNat ∧
    (0x30000008#32).extractLsb' 3 25 ≠ 0 ∧ (0x38000007#32).extractLsb' 3 25 ≠ 0 :=
  ⟨fun w _ => ready w start, by decide⟩

theorem wit_LoadsymWordOutcome :
    Ready 0x41000001 (presentWord 0x41000001 halfLoaded) ∧ (0x41000001#32).extractLsb' 28 4 = 4 ∧
    (0x41000001#32).extractLsb' 25 3 = 0 ∧ (0x42000000#32).extractLsb' 28 4 = 4 ∧
    (0x42000000#32).extractLsb' 25 3 ≠ 0 := ⟨ready _ _, by decide⟩

theorem wit_LoadsymReproducesTheEncodersSymbols :
    exec .encode start = .next encoded ∧ encoded.nword = .val 0xC3014E ∧ encoded.iword = .val 0x3CFEB1 :=
  ⟨rfl, by decide, by decide⟩

/-- No symbols of an empty buffer, and the 24 symbols of a half-loaded one. -/
theorem wit_TransmitLoadsItsSegments :
    ((0#6).toNat ≤ 48 ∧ start.sym.toList.take (0#6).toNat = ([] : List Bool).map .val) ∧
    ((1#6).toNat ≤ 48 ∧ halfLoaded.sym.toList.take (1#6).toNat = [true].map .val) := by decide

theorem wit_TransmitNhLoadsPayloadAndTrailer :
    (2#6).toNat ≤ 48 ∧ halfLoaded.sym.toList.take (2#6).toNat = [true, true].map .val := by decide

/-- All 48 symbols are written after `ENCODE`. -/
theorem wit_transmit_full : ∃ bs : List Bool,
    (48#6).toNat ≤ 48 ∧ encoded.sym.toList.take (48#6).toNat = bs.map .val := by
  refine ⟨(expand 0xC3014E 0x3CFEB1).toList, by decide, ?_⟩
  decide +kernel

/-- The lowest and the highest cell. -/
theorem wit_TransmitFaultsOnTheLowestUnsetSymbol :
    start.sym[(0 : Fin 48)] = .unset ∧ (∀ j : Fin 48, j < 0 → start.sym[j] ≠ .unset) ∧
    halfLoaded.sym[(24 : Fin 48)] = .unset ∧ (∀ j : Fin 48, j < 24 → halfLoaded.sym[j] ≠ .unset) ∧
    (25#6).toNat ≤ 48 ∧ 24 < (25#6).toNat := by decide

theorem wit_TransmitWordOutcomes :
    (∀ w ∈ [0x58000000#32, 0x50000031, 0x50000019, 0x50000018, 0x68000000, 0x60000031, 0x60000019, 0x60000018],
      Ready w (presentWord w halfLoaded)) ∧
    ((0x58000000#32).extractLsb' 7 21 ≠ 0 ∧ (0x68000000#32).extractLsb' 6 22 ≠ 0) ∧
    ((0x58000000#32).extractLsb' 28 4 = 5 ∧ (0x68000000#32).extractLsb' 28 4 = 6) ∧
    ([0x50000031#32, 0x50000019, 0x50000018].map fun w => (w.extractLsb' 28 4, w.extractLsb' 7 21)) =
      List.replicate 3 (5, 0) ∧
    ([0x60000031#32, 0x60000019, 0x60000018].map fun w => (w.extractLsb' 28 4, w.extractLsb' 6 22)) =
      List.replicate 3 (6, 0) ∧
    (halfLoaded.sym.toList.take 25 =
        (halfLoaded.sym.toList.take 24) ++ .unset :: ([] : List (Reg Bool))) ∧
    (∃ bs : List Bool, halfLoaded.sym.toList.take 24 = bs.map .val) := by
  refine ⟨fun w _ => ready _ _, by decide, by decide, by decide, by decide, by decide +kernel, ?_⟩
  exact ⟨[true, true, false, false, false, false, true, true, false, false, true, true, true, true, false, false,
    false, false, false, false, false, false, false, true], by decide⟩

theorem wit_SegmentCounts :
    (List.replicate 48 true).length = 48 ∧ (if 0 < excRaw.stopMarkCyc then 1 else 0) = 1 := by decide

theorem wit_EmitStepMovesTheHeadToTheWave :
    (∀ as ∈ [[], [.await], [.ret .powerOn], [.setIE false], [.op .tempUp]], hostWaits (feed as sending) = true) ∧
    hostWaits (feed [.write 0x20000000] (putPort 0x30000000 sending)) = true ∧
    (feed [.pass] sending).inputs = .pass :: [] ∧ sending.mark = none ∧ sending.busy = true ∧
    sending.txq = .mark 170 :: [.space 4400000, .mark 21, .space 5000000] := by decide

theorem wit_CompletionStepLowersBusy :
    sent.mark = none ∧ sent.busy = true ∧ sent.txq = [] ∧ hostWaits (feed [.ret .powerOn] sent) = true ∧
    (feed [.pass] sent).inputs = .pass :: [] := by decide

theorem wit_PendingInterruptIsTakenAfterCompletion :
    let s := feed [.ret .powerOn] (pendIrq sent)
    s.mark = none ∧ hostWaits s = true ∧ s.busy = true ∧ s.txq = [] ∧ s.hostIE = true ∧ 0 < s.irqPending :=
  ⟨rfl, rfl, rfl, rfl, rfl, by decide⟩

theorem wit_TransmissionRunsToCompletion :
    sending.mark = none ∧ hostWaits (feed [.ret .powerOn] sending) = true ∧ sending.busy = true ∧
    4 ≤ sending.txq.length := ⟨rfl, rfl, rfl, by decide⟩

theorem wit_AcceptedTransmitEmitsItsFrames :
    let s := feed [.ret .powerOn] (presentWord 0x50000041 halfLoaded)
    Ready 0x50000041 s ∧ hostWaits { s with port := none, busy := true } = true ∧
    decode 0x50000041 = .ok (.transmit 1 1) ∧ (1#6).toNat ≤ 48 ∧ s.sym.toList.take (1#6).toNat = [true].map .val :=
  ⟨⟨rfl, rfl, rfl, rfl, rfl⟩, rfl, by decide, by decide, by decide⟩

/-- An emit step, and a reset of a block with a waveform. -/
theorem wit_OnlyTheEmitStepExtendsTheWave :
    (∃ t, step sending = .next t ∧ t.wave ≠ sending.wave) ∧
    (∃ t, step (feed [.reset] { start with wave := [.space 1] }) = .next t ∧ t.wave ≠ [.space 1]) :=
  ⟨⟨_, rfl, by decide +kernel⟩, ⟨_, rfl, by decide +kernel⟩⟩

/-- `ENCODE`, `ENCODE_SPECIAL` and a reset write the words. -/
theorem wit_OnlyTheEncodeCommandsWriteTheWords :
    (∃ t, step (presentWord 0x20000000 start) = .next t ∧ t.nword ≠ .unset) ∧
    (∃ t, step (presentWord 0x30000005 start) = .next t ∧ t.iword ≠ .unset) ∧
    (∃ t, step (feed [.reset] encoded) = .next t ∧ t.nword ≠ encoded.nword) :=
  ⟨⟨_, rfl, by decide⟩, ⟨_, rfl, by decide⟩, ⟨_, rfl, by decide⟩⟩

theorem wit_OnlySetstateWritesState :
    (∃ t, step (presentWord 0x10000438 start) = .next t ∧ t.stateReg ≠ start.stateReg) ∧
    (∃ t, step (feed [.reset] (withTuple 22 3 1 3 35)) = .next t ∧ t.stateReg ≠ ⟨22, 3, 1, 3, 35⟩) :=
  ⟨⟨_, rfl, by decide⟩, ⟨_, rfl, by decide⟩⟩

/-- A command issued while `BUSY = 1`, one already held, and the completion step. -/
theorem wit_HostIsHeldWhileBusy :
    (let s := feed [.write 0x20000000] sending
     s.busy = true ∧ s.mark = none ∧ s.port = none ∧ s.inputs = .write 0x20000000 :: []) ∧
    (∃ t, (putPort 0x20000000 sending).busy = true ∧ step (putPort 0x20000000 sending) = .next t ∧
      (∀ rest, (putPort 0x20000000 sending).inputs ≠ .reset :: rest)) ∧
    (∃ t, sent.busy = true ∧ step sent = .next t ∧ t.busy = false) :=
  ⟨⟨rfl, rfl, rfl, rfl⟩, ⟨_, rfl, rfl, fun _ h => by cases h⟩, ⟨_, rfl, rfl, rfl⟩⟩

/-- An interrupt is taken; one stays pending while `BUSY = 1`; the host writes `HOST_IE`. -/
theorem wit_InterruptsAreTakenOnlyWhenNotInhibited :
    (∃ t, step (pendIrq start) = .next t ∧ t.irqTaken ≠ start.irqTaken) ∧
    (∃ t, step (pendIrq sending) = .next t ∧ t.irqTaken = sending.irqTaken) ∧
    (∃ t, step (feed [.setIE false] start) = .next t ∧ t.hostIE ≠ start.hostIE) :=
  ⟨⟨_, rfl, by decide⟩, ⟨_, rfl, by decide⟩, ⟨_, rfl, by decide⟩⟩

theorem wit_NoStepWritesTheConfiguration : ∃ t, step (feed [.reset] start) = .next t := ⟨_, rfl⟩

/-- A read of each selector, of an `UNSET` and of a written cell, and while `BUSY = 1`. -/
theorem wit_HostReadsHaveNoSideEffect :
    (∀ s ∈ [start, encoded, sending], s.mark = none ∧ s.port = none ∧ irqReady s = false) ∧
    (feed [.read .state] sending).mark = none ∧ (feed [.read .busy] sending).inputs = .read .busy :: [] ∧
    start.nword = .unset ∧ encoded.nword = .val 0xC3014E ∧ start.iword = .unset ∧ encoded.iword = .val 0x3CFEB1 ∧
    start.sym[(0 : Fin 48)] = .unset ∧ encoded.sym[(0 : Fin 48)] = .val true ∧
    start.sym[(47 : Fin 48)] = .unset ∧ encoded.sym[(47 : Fin 48)] = .val true :=
  ⟨by simp; decide, rfl, rfl, by decide, by decide, by decide, by decide, by decide, by decide +kernel,
    by decide, by decide +kernel⟩

theorem wit_ResetEndsATransmission :
    (feed [.reset] sending).mark = none ∧ (feed [.reset] sending).inputs = .reset :: [] ∧
    (feed [.reset] sending).busy = true := ⟨rfl, rfl, rfl⟩

/-- A configuration that passes is `excRaw` (`test_exc_passes`); one that fails each check is above. -/
theorem wit_PowerUpAcceptsExactlyWellFormedConfigurations :
    powerUp excRaw = .next start ∧ powerUp { excRaw with onShift := 19 } = .refused (.config .onSpan) := ⟨rfl, rfl⟩

theorem wit_EveryStepKeepsTheBlockInvariant :
    Inv (presentWord 0x20000000 start) ∧ ∃ t, step (presentWord 0x20000000 start) = .next t :=
  ⟨start_inv _, _, rfl⟩

theorem wit_TransmitAfterEncodeNeverFaults :
    Inv (presentWord 0x50000030 encoded) ∧ (presentWord 0x50000030 encoded).nword ≠ .unset ∧
    Ready 0x50000030 (presentWord 0x50000030 encoded) ∧ decode 0x50000030 = .ok (.transmit 0 48) ∧
    Inv (presentWord 0x60000000 encoded) ∧ (presentWord 0x60000000 encoded).nword ≠ .unset ∧
    Ready 0x60000000 (presentWord 0x60000000 encoded) ∧ decode 0x60000000 = .ok (.transmitNh 0) ∧
    (48#6).toNat ≤ 48 ∧ (0#6).toNat ≤ 48 :=
  ⟨encoded_inv _, by decide, ready _ _, by decide, encoded_inv _, by decide, ready _ _, by decide, by decide⟩

theorem wit_StepsKeepTheControllersInvariants :
    HostOk start.host ∧ ∃ t, step (feed [.op .tempUp] start) = .next t := ⟨⟨by decide, by decide, fun _ => rfl⟩, _, rfl⟩

/-- A powered host's power-on issues a `SETSTATE`. -/
theorem wit_ControllerCommandsStayInRange (p : HostCfg) :
    HostOk HostState.initial ∧ .setstate 20 0 1 0 0 ∈ (hostOperate p .powerOn HostState.initial).2 :=
  ⟨⟨by decide, by decide, fun _ => rfl⟩, List.mem_cons_self ..⟩

/-- Each timer set and stepped to the other's index, at 35, 34 and 1. -/
theorem wit_TimerCollisionMovesTheOffTimer :
    (∀ i ∈ [(35 : Fin 36), 34, 1], { HostState.initial with timerOn := i }.timerOn = i ∧
      { HostState.initial with timerOff := i }.timerOff = i ∧ i ≠ 0) ∧
    (let h := { HostState.initial with timerOn := 35, timerOff := 34 }
     h.timerOn = 35 ∧ h.timerOff.val + 1 = (35 : Fin 36).val) ∧
    (let h := { HostState.initial with timerOff := 1 }
     h.timerOff = 1 ∧ h.timerOn.val + 1 = (1 : Fin 36).val) := by decide

theorem wit_PowerOffAndOnCommands : { HostState.initial with powered := true }.powered = true := rfl

/-- Clamping at 16, 17, 30 and 31. -/
theorem wit_TemperatureSetterClamps :
    clampTemp 16 = 17 ∧ clampTemp 17 = 17 ∧ clampTemp 30 = 30 ∧ clampTemp 31 = 30 := by decide

/-- Swing on an unpowered unit and LED-display on one. -/
theorem wit_TogglesSendOnlyWhenPowered :
    HostState.initial.powered = false ∧ { HostState.initial with powered := true }.powered = true := ⟨rfl, rfl⟩

theorem wit_OperationIssuesItsCommandsAndReturns :
    start.mark = none ∧ HostFree start ∧ (feed [.op .tempUp] start).inputs = .op .tempUp :: [] ∧
    (feed [.ret .tempUp] start).inputs = .ret .tempUp :: [] := ⟨rfl, ⟨rfl, rfl, rfl⟩, rfl, rfl⟩

end Sys2Proof.Tests
end

/-! PROOFS. Rules of the whole machine: what one step can do, the transmitter's course, reads, and the block's
invariant (spec/10_state.md). -/

namespace Sys2Proof.Machine

/-! ### What one step can do -/

/-- Everything one step can do to `s`, as one constructor per effect with the guard under which it comes. `ins` is what
is left of the inputs where the effect does not say how they change. -/
inductive StepEffect (s : State) : State → Prop
  /-- The transmitter emits the head of its queue (R125). -/
  | emit (ins : List HostAct) (seg : Segment) (q : List Segment) (hb : s.busy = true) (hq : s.txq = seg :: q) :
      StepEffect s (emitSegment seg q (setInputs ins s))
  /-- The transmitter completes (R126). -/
  | complete (ins : List HostAct) (hb : s.busy = true) (hq : s.txq = []) : StepEffect s (clearBusy (setInputs ins s))
  /-- The host takes a pending interrupt (R176). -/
  | interrupt (ins : List HostAct) (hr : irqReady s = true) : StepEffect s (takeIrq (setInputs ins s))
  /-- The block runs the command word held on the port or issued now (R55). -/
  | command (ins : List HostAct) (w : CmdWord) (i : Instr) (t : State) (ho : Offered w s) (hb : s.busy = false)
      (hi : decode w = .ok i) (he : exec i (takePort (setInputs ins s)) = .next t) : StepEffect s t
  /-- Nothing is enabled, or the host has awaited its transmission (R190). -/
  | idle (ins : List HostAct) (hf : HostFree s) : StepEffect s (setInputs ins s)
  /-- The host issues a word while `BUSY = 1`: it is held (R26). -/
  | hold (ins : List HostAct) (w : CmdWord) (hb : s.busy = true) (hp : s.port = none) :
      StepEffect s (putPort w (setInputs ins s))
  /-- The host reads the read view (R35). -/
  | noted (ins : List HostAct) (v : ReadValue) : StepEffect s (noteRead v (setInputs ins s))
  /-- An operation of the Controller returns (R161). -/
  | returned (ins : List HostAct) (o : HostOp) (v : Option Nat) (hf : HostFree s) :
      StepEffect s (noteReturn o v (setInputs ins s))
  /-- The host writes `HOST_IE` (R28). -/
  | enable (b : Bool) (rest : List HostAct) (hf : HostFree s) (ha : s.inputs = .setIE b :: rest) :
      StepEffect s (setHostIE b (setInputs rest s))
  /-- An interrupt becomes pending (R176). -/
  | pend (ins : List HostAct) : StepEffect s (pendIrq (setInputs ins s))
  /-- The block is reset (R190, R191). -/
  | reset (rest : List HostAct) (ha : s.inputs = .reset :: rest) : StepEffect s (resetBlock (setInputs rest s))
  /-- The Controller stores its new state (R146). -/
  | operate (ins : List HostAct) (h : HostState) (hf : HostFree s) : StepEffect s (setHost h (setInputs ins s))

/-- `irqReady` written out: `INT_INHIBIT` is `BUSY` (R28). -/
theorem irqReady_iff (s : State) : irqReady s = true ↔ s.hostIE = true ∧ s.busy = false ∧ 0 < s.irqPending := by
  simp [irqReady, State.interruptible, State.intInhibit, and_assoc]

theorem stepEffect_of_blockStep {s t : State} (ins : List HostAct) (h : blockStep (setInputs ins s) = .next t) :
    StepEffect s t := by
  rcases blockStep_next h with ⟨hb, rfl⟩ | ⟨-, hr, rfl⟩ | ⟨hb, -, w, i, hp, hi, he⟩ | ⟨hb, hr, hp, rfl⟩
  · rcases transmitterStep_cases (setInputs ins s) with ⟨seg, q, hq, ht⟩ | ⟨hq, ht⟩
    · rw [ht]; exact .emit ins seg q hb hq
    · rw [ht]; exact .complete ins hb hq
  · exact .interrupt ins hr
  · exact .command ins w i t (.inl hp) hb hi he
  · exact .idle ins ⟨hb, hp, hr⟩

theorem stepEffect_of_hostMove {s t : State} {a : HostAct} {rest : List HostAct} (ha : s.inputs = a :: rest)
    (h : HostMove s rest a t) : StepEffect s t := by
  cases h with
  | hold w hb hp => exact .hold rest w hb hp
  | issue w i t hf hi he =>
    obtain ⟨hb, hp, -⟩ := hf
    exact .command rest w i t (.inr ⟨hp, rest, ha⟩) hb hi he
  | awaited hf => exact .idle rest hf
  | returned o hf => exact .returned rest o _ hf
  | noted sel v hv => exact .noted rest v
  | enable b hf => exact .enable b rest hf ha
  | pend => exact .pend rest
  | reset => exact .reset rest ha
  | operate o hf => exact .operate _ _ hf

/-- Every step that answers a next state has one of the effects of `StepEffect`. -/
theorem stepEffect_of_step {s t : State} (h : step s = .next t) : StepEffect s t := by
  obtain ⟨-, ⟨a, rest, ha, hm⟩ | ⟨rest, -, hb⟩ | hb⟩ := step_next h
  · exact stepEffect_of_hostMove ha hm
  · exact stepEffect_of_blockStep rest hb
  · exact stepEffect_of_blockStep s.inputs hb

/-! ### What a command leaves unchanged -/

/-- What no command writes. -/
structure CommandFrame (s t : State) : Prop where
  cfg : t.cfg = s.cfg
  wave : t.wave = s.wave
  mark : t.mark = s.mark
  port : t.port = s.port
  hostIE : t.hostIE = s.hostIE
  irqPending : t.irqPending = s.irqPending
  irqTaken : t.irqTaken = s.irqTaken
  host : t.host = s.host
  inputs : t.inputs = s.inputs
  reads : t.reads = s.reads
  returns : t.returns = s.returns

theorem exec_frame {i : Instr} {s t : State} (h : exec i s = .next t) : CommandFrame s t := by
  rcases exec_next h with ⟨r, rfl⟩ | ⟨n, m, rfl⟩ | ⟨hf, d, rfl⟩ | ⟨bs, hdr, rfl⟩ | ⟨bs, r, rfl⟩ <;>
    constructor <;> simp

/-- What each command writes where it completes: `exec_next` with the command named. -/
inductive CommandEffect (s : State) : Instr → State → Prop
  | setstate (temp : BitVec 5) (mode fan : BitVec 3) (ton toff : BitVec 6) :
      CommandEffect s (.setstate temp mode fan ton toff) (writeState ⟨temp, mode, fan, ton, toff⟩ s)
  | encode (n m : Word24) : CommandEffect s .encode (writeWords n m s)
  | encodeSpecial (sc : BitVec 3) (n m : Word24) : CommandEffect s (.encodeSpecial sc) (writeWords n m s)
  | loadsym (h : BitVec 1) (data : BitVec 24) : CommandEffect s (.loadsym h data) (writeHalf h data s)
  | transmit (r : BitVec 1) (len : BitVec 6) (bs : List Bool) :
      CommandEffect s (.transmit r len) (loadTx (transmitQueue s.cfg.cfg bs (r == 1)) s)
  | transmitNh (len : BitVec 6) (bs : List Bool) :
      CommandEffect s (.transmitNh len) (loadTx (frame s.cfg.cfg bs false) s)

theorem commandEffect_of_exec {i : Instr} {s t : State} (h : exec i s = .next t) : CommandEffect s i t := by
  cases i with
  | setstate temp mode fan ton toff => cases h; exact .setstate temp mode fan ton toff
  | encode => cases h; exact .encode _ _
  | encodeSpecial sc =>
    simp only [exec, execEncodeSpecial] at h
    split at h
    · cases h; exact .encodeSpecial sc _ _
    · cases h
  | loadsym hf data => cases h; exact .loadsym hf data
  | transmit r len =>
    obtain ⟨-, bs, -, rfl⟩ := startTx_next h
    exact .transmit r len bs
  | transmitNh len =>
    obtain ⟨-, bs, -, rfl⟩ := startTx_next h
    exact .transmitNh len bs

/-- Only the encode commands write the words (R23, R24). -/
theorem exec_words {i : Instr} {s t : State} (h : exec i s = .next t) :
    (t.nword = s.nword ∧ t.iword = s.iword) ∨ i = .encode ∨ ∃ sc, i = .encodeSpecial sc := by
  cases commandEffect_of_exec h with
  | encode => exact .inr (.inl rfl)
  | encodeSpecial sc => exact .inr (.inr ⟨sc, rfl⟩)
  | setstate | loadsym | transmit | transmitNh => exact .inl ⟨by simp, by simp⟩

/-- Only `SETSTATE` writes `STATE`, with its operands (R21, R80). -/
theorem exec_stateReg {i : Instr} {s t : State} (h : exec i s = .next t) :
    t.stateReg = s.stateReg ∨
      ∃ temp mode fan ton toff, i = .setstate temp mode fan ton toff ∧ t.stateReg = ⟨temp, mode, fan, ton, toff⟩ := by
  cases commandEffect_of_exec h with
  | setstate temp mode fan ton toff => exact .inr ⟨temp, mode, fan, ton, toff, rfl, rfl⟩
  | encode | encodeSpecial | loadsym | transmit | transmitNh => exact .inl (by simp)

/-! ### The block's invariant -/

theorem Inv.txqOk {s : State} (hs : Inv s) : TxqOk s := hs.1
theorem Inv.wordsTogether {s : State} (hs : Inv s) : WordsTogether s := hs.2.1
theorem Inv.symbolsFollowWords {s : State} (hs : Inv s) : SymbolsFollowWords s := hs.2.2.1
theorem Inv.halvesTogether {s : State} (hs : Inv s) : HalvesTogether s := hs.2.2.2.1
theorem Inv.segmentsOk {s : State} (hs : Inv s) : SegmentsOk s := hs.2.2.2.2

/-- The segments already emitted hold no empty mark. -/
theorem Inv.wave_ok {s : State} (hs : Inv s) : s.wave.all segmentOk = true := by
  have hseg := hs.segmentsOk
  simp only [SegmentsOk, List.all_append, Bool.and_eq_true] at hseg
  exact hseg.1

/-- The invariant after a step that writes the transmitter's fields only. -/
theorem Inv.of_transmitter_write {s t : State} (hs : Inv s) (hn : t.nword = s.nword) (hi : t.iword = s.iword)
    (hsym : t.sym = s.sym) (hq : TxqOk t) (hseg : SegmentsOk t) : Inv t := by
  refine ⟨hq, ?_, ?_, ?_, hseg⟩
  · simpa only [WordsTogether, hn, hi] using hs.wordsTogether
  · simpa only [SymbolsFollowWords, hn, hsym] using hs.symbolsFollowWords
  · simpa only [HalvesTogether, hsym] using hs.halvesTogether

/-- The invariant after a step that writes the words and symbols only. -/
theorem Inv.of_register_write {s t : State} (hs : Inv s) (hcfg : t.cfg = s.cfg) (hbusy : t.busy = s.busy)
    (htxq : t.txq = s.txq) (hwave : t.wave = s.wave) (hw : WordsTogether t) (hf : SymbolsFollowWords t)
    (hh : HalvesTogether t) : Inv t := by
  refine ⟨?_, hw, hf, hh, ?_⟩
  · simpa only [TxqOk, hcfg, hbusy, htxq] using hs.txqOk
  · simpa only [SegmentsOk, htxq, hwave] using hs.segmentsOk

/-- The invariant after a step that writes none of the fields it speaks of. -/
theorem Inv.congr {s t : State} (hs : Inv s) (hcfg : t.cfg = s.cfg) (hn : t.nword = s.nword) (hi : t.iword = s.iword)
    (hsym : t.sym = s.sym) (hbusy : t.busy = s.busy) (htxq : t.txq = s.txq) (hwave : t.wave = s.wave) : Inv t := by
  refine hs.of_transmitter_write hn hi hsym ?_ ?_
  · simpa only [TxqOk, hcfg, hbusy, htxq] using hs.txqOk
  · simpa only [SegmentsOk, htxq, hwave] using hs.segmentsOk

theorem inv_resetWith (w : WfCfg) : Inv (State.resetWith w) := by
  refine ⟨?_, rfl, ?_, ?_, rfl⟩
  · simp [TxqOk]
  · simp [SymbolsFollowWords, Reg.isUnset]
  · simp [HalvesTogether]

theorem inv_resetBlock {s : State} (hs : Inv s) : Inv (resetBlock s) := by
  refine (inv_resetWith s.cfg).of_transmitter_write rfl rfl rfl ?_ ?_
  · simp [TxqOk]
  · have hwave := hs.wave_ok
    cases hb : s.busy <;> simp [SegmentsOk, hb, hwave]

/-- Emitting moves a segment from the queue's head to the waveform's end, so `WAVE` followed by `TXQ` stays the same. -/
theorem inv_emitSegment {s : State} {seg : Segment} {q : List Segment} (hs : Inv s) (hb : s.busy = true)
    (htxq : s.txq = seg :: q) : Inv (emitSegment seg q s) := by
  refine hs.of_transmitter_write rfl rfl rfl ?_ ?_
  · intro hne
    obtain ⟨-, hlast⟩ := hs.txqOk (by simp [htxq])
    obtain ⟨seg', q', rfl⟩ := List.exists_cons_of_ne_nil hne
    exact ⟨hb, by rwa [htxq, List.getLast?_cons_cons] at hlast⟩
  · simpa [SegmentsOk, htxq] using hs.segmentsOk

theorem inv_clearBusy {s : State} (hs : Inv s) (htxq : s.txq = []) : Inv (clearBusy s) :=
  hs.of_transmitter_write rfl rfl rfl (fun hne => absurd htxq hne) hs.segmentsOk

/-! A frame ends with the trailer space and holds no empty mark (R66, R115). -/

theorem frame_getLast? (c : Cfg) (bs : List Bool) (header : Bool) :
    (frame c bs header).getLast? = some (.space c.trailerSpaceNs) := by
  simp [frame, trailerSegs]

theorem transmitQueue_getLast? (c : Cfg) (bs : List Bool) (again : Bool) :
    (transmitQueue c bs again).getLast? = some (.space c.trailerSpaceNs) := by
  cases again with
  | false => exact frame_getLast? c bs true
  | true => rw [transmitQueue, if_pos rfl, List.getLast?_append, frame_getLast?, Option.some_or]

theorem stopSegs_all_segmentOk (c : Cfg) : (stopSegs c).all segmentOk = true := by
  unfold stopSegs
  split
  · rename_i h
    simp [segmentOk, h]
  · rfl

theorem frame_all_segmentOk (w : WfCfg) (bs : List Bool) (header : Bool) :
    (frame w.cfg bs header).all segmentOk = true := by
  obtain ⟨hhdr, hbit⟩ := w.marks_pos
  have hheader : (headerSegs w.cfg).all segmentOk = true := by simp [headerSegs, segmentOk]; omega
  have hbits : (bitSegs w.cfg bs).all segmentOk = true := by
    simp [bitSegs, symbolSegs, segmentOk]; omega
  have htrailer : (trailerSegs w.cfg).all segmentOk = true := by
    rw [trailerSegs, List.all_append, stopSegs_all_segmentOk]; rfl
  rw [frame, List.all_append, List.all_append, hbits, htrailer]
  cases header with
  | false => rfl
  | true => rw [if_pos rfl, hheader]; rfl

theorem transmitQueue_all_segmentOk (w : WfCfg) (bs : List Bool) (again : Bool) :
    (transmitQueue w.cfg bs again).all segmentOk = true := by
  have hframe := frame_all_segmentOk w bs true
  cases again with
  | false => exact hframe
  | true => rw [transmitQueue, if_pos rfl, List.all_append, List.all_append, hframe]; rfl

/-- Loading a queue that ends with the trailer space and holds no empty mark keeps the invariant. -/
theorem inv_loadTx {s : State} {q : List Segment} (hs : Inv s)
    (hlast : q.getLast? = some (.space s.cfg.cfg.trailerSpaceNs)) (hok : q.all segmentOk = true) :
    Inv (loadTx q s) := by
  refine hs.of_transmitter_write rfl rfl rfl (fun _ => ⟨rfl, hlast⟩) ?_
  simp only [SegmentsOk, loadTx_wave, loadTx_txq, List.all_append, hs.wave_ok, hok, Bool.and_self]

theorem inv_writeWords {s : State} (n m : Word24) (hs : Inv s) : Inv (writeWords n m s) := by
  refine hs.of_register_write rfl rfl rfl rfl rfl ?_ ?_
  · simp [SymbolsFollowWords, Reg.isUnset]
  · simp [HalvesTogether, Reg.isUnset]

/-- Whether a cell is `UNSET` after a half was written: in that half none is (R83). -/
theorem halfWritten_isUnset (h : BitVec 1) (data : BitVec 24) (sym : Vector (Reg Bool) 48) (k : Fin 48) :
    (halfWritten h data sym)[k].isUnset = if k.val / 24 = h.toNat then false else sym[k].isUnset := by
  rw [halfWritten_getElem]
  split <;> rfl

theorem inv_writeHalf {s : State} (h : BitVec 1) (data : BitVec 24) (hs : Inv s) : Inv (writeHalf h data s) := by
  refine hs.of_register_write (by simp) (by simp) (by simp) (by simp) ?_ ?_ ?_
  · simpa [WordsTogether] using hs.wordsTogether
  · intro hn k
    rw [writeHalf_sym, halfWritten_isUnset, hs.symbolsFollowWords (by simpa using hn) k, ite_self]
  · intro j k hjk
    rw [writeHalf_sym, halfWritten_isUnset, halfWritten_isUnset, hjk, hs.halvesTogether j k hjk]

theorem inv_exec {i : Instr} {s t : State} (hs : Inv s) (h : exec i s = .next t) : Inv t := by
  cases commandEffect_of_exec h with
  | setstate => exact hs.congr rfl rfl rfl rfl rfl rfl rfl
  | encode n m => exact inv_writeWords n m hs
  | encodeSpecial sc n m => exact inv_writeWords n m hs
  | loadsym hf data => exact inv_writeHalf hf data hs
  | transmit r len bs =>
    exact inv_loadTx hs (transmitQueue_getLast? _ bs _) (transmitQueue_all_segmentOk s.cfg bs _)
  | transmitNh len bs => exact inv_loadTx hs (frame_getLast? _ bs _) (frame_all_segmentOk s.cfg bs _)

/-- Settles O52, by the effects a step can have. -/
theorem everyStepKeepsTheBlockInvariant : Obligations.EveryStepKeepsTheBlockInvariant := by
  unfold Obligations.EveryStepKeepsTheBlockInvariant
  intro s t hs h
  have hins (ins : List HostAct) : Inv (setInputs ins s) := hs.congr rfl rfl rfl rfl rfl rfl rfl
  cases stepEffect_of_step h with
  | emit ins seg q hb hq => exact inv_emitSegment (hins ins) hb hq
  | complete ins hb hq => exact inv_clearBusy (hins ins) hq
  | command ins w i _ ho hb hi he =>
    exact inv_exec (s := takePort (setInputs ins s)) (hs.congr rfl rfl rfl rfl rfl rfl rfl) he
  | reset rest ha => exact inv_resetBlock (hins rest)
  | interrupt | idle | hold | noted | returned | enable | pend | operate =>
    exact hs.congr rfl rfl rfl rfl rfl rfl rfl

/-- Settles O51, from the reset state of any configuration. -/
theorem resetMeetsTheBlockInvariant : Obligations.ResetMeetsTheBlockInvariant :=
  ⟨inv_resetWith Config.given, inv_resetWith⟩

/-! ### Frames of the step -/

theorem irqReady_eq_false_of_busy {s : State} (hb : s.busy = true) : irqReady s = false := by
  simp [irqReady, State.interruptible, State.intInhibit, hb]

/-- Settles O46, by the effects a step can have: none writes `CFG`. -/
theorem noStepWritesTheConfiguration : Obligations.NoStepWritesTheConfiguration := by
  unfold Obligations.NoStepWritesTheConfiguration
  intro s t h
  cases stepEffect_of_step h with
  | command ins w i _ ho hb hi he => exact (exec_frame he).cfg
  | emit | complete | interrupt | idle | hold | noted | returned | enable | pend | reset | operate => rfl

/-- Settles O40: only the emit effect and the reset of an idle block write `WAVE`. -/
theorem onlyTheEmitStepExtendsTheWave : Obligations.OnlyTheEmitStepExtendsTheWave := by
  unfold Obligations.OnlyTheEmitStepExtendsTheWave
  intro s t h hne
  cases stepEffect_of_step h with
  | emit ins seg q hb hq => exact .inl ⟨hb, seg, hq, rfl⟩
  | reset rest ha =>
    cases hb : s.busy with
    | true => exact absurd (by simp [hb]) hne
    | false => exact .inr ⟨by simp [hb], rfl, rest, ha⟩
  | command ins w i _ ho hb hi he => exact absurd (exec_frame he).wave hne
  | complete | interrupt | idle | hold | noted | returned | enable | pend | operate => exact absurd rfl hne

/-- Settles O41: of the effects only a command and a reset reach the words, and `exec_words` names the commands. -/
theorem onlyTheEncodeCommandsWriteTheWords : Obligations.OnlyTheEncodeCommandsWriteTheWords := by
  unfold Obligations.OnlyTheEncodeCommandsWriteTheWords
  intro s t h hne
  cases stepEffect_of_step h with
  | command ins w i _ ho hb hi he =>
    rcases exec_words he with ⟨hn, hm⟩ | rfl | ⟨sc, rfl⟩
    · exact absurd hne (not_or.mpr ⟨not_not.mpr hn, not_not.mpr hm⟩)
    · exact .inl ⟨w, ho, hb, .inl hi⟩
    · exact .inl ⟨w, ho, hb, .inr ⟨sc, hi⟩⟩
  | reset rest ha => exact .inr ⟨rest, ha⟩
  | emit | complete | interrupt | idle | hold | noted | returned | enable | pend | operate => simp at hne

/-- Settles O42: of the effects only a command and a reset reach `STATE`, and of the commands only `SETSTATE`. -/
theorem onlySetstateWritesState : Obligations.OnlySetstateWritesState := by
  unfold Obligations.OnlySetstateWritesState
  intro s t h hne
  cases stepEffect_of_step h with
  | command ins w i _ ho hb hi he =>
    rcases exec_stateReg he with hkept | ⟨temp, mode, fan, ton, toff, rfl, ht⟩
    · exact absurd hkept hne
    · exact .inl ⟨w, temp, mode, fan, ton, toff, ho, hb, hi, ht⟩
  | reset rest ha => exact .inr ⟨rest, ha⟩
  | emit | complete | interrupt | idle | hold | noted | returned | enable | pend | operate => exact absurd rfl hne

/-- Settles O44, by the effects a step can have: `interrupt` takes one, `pend` adds one, `enable` writes `HOST_IE`. -/
theorem interruptsAreTakenOnlyWhenNotInhibited : Obligations.InterruptsAreTakenOnlyWhenNotInhibited := by
  unfold Obligations.InterruptsAreTakenOnlyWhenNotInhibited
  intro s t h
  cases stepEffect_of_step h with
  | interrupt ins hr =>
    obtain ⟨hie, hb, hpos⟩ := (irqReady_iff s).mp hr
    refine ⟨fun _ => ⟨hie, hb, hpos, rfl, ?_, rfl, rfl, rfl, rfl, rfl, rfl, rfl, rfl, rfl⟩, ?_,
      fun hne => absurd rfl hne⟩
    · simp only [takeIrq_irqPending, setInputs_irqPending]
      omega
    · simp
  | command ins w i _ ho hb hi he =>
    have hf := exec_frame he
    exact ⟨fun hne => absurd hf.irqTaken hne, fun _ => hf.irqPending.ge, fun hne => absurd hf.hostIE hne⟩
  | pend => exact ⟨fun hne => absurd rfl hne, fun _ => Nat.le_succ _, fun hne => absurd rfl hne⟩
  | enable b rest hf ha => exact ⟨fun hne => absurd rfl hne, fun _ => le_rfl, fun _ => ⟨b, rest, ha⟩⟩
  | emit | complete | idle | hold | noted | returned | reset | operate =>
    exact ⟨fun hne => absurd rfl hne, fun _ => le_rfl, fun hne => absurd rfl hne⟩

/-! ### The step of a known agent -/

/-- An unmarked machine with an input left does that input's act. -/
theorem step_of_input {s : State} {a : HostAct} {rest : List HostAct} (hm : s.mark = none)
    (hi : s.inputs = a :: rest) : step s = hostStep a rest s := by
  simp [step, machineStep, agentStep, hm, hi]

theorem hostHeld_eq_false_of {s : State} (hp : s.port = none) (hr : irqReady s = false) : hostHeld s = false := by
  simp [hostHeld, hp, hr]

theorem blockStep_of_busy {s : State} (hb : s.busy = true) : blockStep s = .next (transmitterStep s) := by
  simp [blockStep, hb]

theorem blockStep_of_port {w : CmdWord} {s : State} (hb : s.busy = false) (hr : irqReady s = false)
    (hp : s.port = some w) : blockStep s = accept w s := by
  simp [blockStep, hb, hr, hp]

theorem transmitterStep_of_cons {seg : Segment} {q : List Segment} {s : State} (hq : s.txq = seg :: q) :
    transmitterStep s = emitSegment seg q s := by
  simp [transmitterStep, hq]

theorem transmitterStep_of_nil {s : State} (hq : s.txq = []) : transmitterStep s = clearBusy s := by
  simp [transmitterStep, hq]

theorem accept_of_decode {w : CmdWord} {i : Instr} {s : State} (hi : decode w = .ok i) :
    accept w s = exec i (takePort s) := by
  simp [accept, hi]

theorem takePort_of_free {s : State} (hp : s.port = none) : takePort s = s := by
  cases s
  cases hp
  rfl

/-- Settles O5, by the agent that moves: the block alone, the block let move by `pass`, the host issuing the word. -/
theorem stepRunsTheDecodedCommand : Obligations.StepRunsTheDecodedCommand := by
  unfold Obligations.StepRunsTheDecodedCommand
  intro s w i hm hb hr hi
  refine ⟨fun hp hw => ?_, fun hp rest hin => ?_, fun hp rest hin => ?_⟩
  · calc step s = accept w s := step_of_ready ⟨hm, hw, hb, hr, hp⟩
      _ = exec i (takePort s) := accept_of_decode hi
  · calc step s = blockStep (setInputs rest s) := step_of_input hm hin
      _ = accept w (setInputs rest s) := blockStep_of_port hb hr hp
      _ = exec i (takePort (setInputs rest s)) := accept_of_decode hi
  · have hheld : hostHeld s = false := hostHeld_eq_false_of hp hr
    calc step s = hostWrite w rest s := step_of_input hm hin
      _ = accept w (setInputs rest s) := by simp [hostWrite, hheld, hb]
      _ = exec i (takePort (setInputs rest s)) := accept_of_decode hi
      _ = exec i (setInputs rest s) := by rw [takePort_of_free (s := setInputs rest s) hp]

/-- Settles O43: with `BUSY = 1` only the effects `emit`, `complete`, `hold`, `noted`, `pend` and `reset` can come. -/
theorem hostIsHeldWhileBusy : Obligations.HostIsHeldWhileBusy := by
  unfold Obligations.HostIsHeldWhileBusy
  intro s hb
  refine ⟨fun w rest hm hp hin => ?_, fun t h hreset => ?_⟩
  · have hheld : hostHeld s = false := hostHeld_eq_false_of hp (irqReady_eq_false_of_busy hb)
    calc step s = hostWrite w rest s := step_of_input hm hin
      _ = .next (putPort w (setInputs rest s)) := by simp [hostWrite, hheld, hb]
  have hnotFree : ¬ HostFree s := fun hf => by simp [hf.1] at hb
  cases stepEffect_of_step h with
  | emit | noted | pend =>
    exact ⟨fun _ hp => hp, rfl, rfl, rfl, rfl, rfl, rfl, fun hnb => absurd (hb.symm.trans hnb) (by decide)⟩
  | complete ins _ hq => exact ⟨fun _ hp => hp, rfl, rfl, rfl, rfl, rfl, rfl, fun _ => ⟨hq, rfl⟩⟩
  | hold ins w _ hfree =>
    exact ⟨fun _ hp => absurd (hfree.symm.trans hp) (by simp), rfl, rfl, rfl, rfl, rfl, rfl,
      fun hnb => absurd (hb.symm.trans hnb) (by decide)⟩
  | interrupt ins hr => exact absurd (hr.symm.trans (irqReady_eq_false_of_busy hb)) (by decide)
  | command ins w i _ ho hidle => exact absurd (hb.symm.trans hidle) (by decide)
  | idle ins hf => exact absurd hf hnotFree
  | returned ins o v hf => exact absurd hf hnotFree
  | enable b rest hf => exact absurd hf hnotFree
  | operate ins h hf => exact absurd hf hnotFree
  | reset rest ha => exact absurd ha (hreset rest)

/-! ### Reads -/

/-- A read that nothing comes before answers the read view's value and notes it. -/
theorem step_of_read {s : State} {sel : ReadSel} {v : ReadValue} {rest : List HostAct} (hm : s.mark = none)
    (hheld : hostHeld s = false) (hin : s.inputs = .read sel :: rest) (hv : readView s sel = .ok v) :
    step s = .next (noteRead v (setInputs rest s)) := by
  rw [step_of_input hm hin]
  simp [hostStep, hostRead, hheld, hv]

theorem step_of_read_error {s : State} {sel : ReadSel} {f : Fault} {rest : List HostAct} (hm : s.mark = none)
    (hheld : hostHeld s = false) (hin : s.inputs = .read sel :: rest) (hv : readView s sel = .error f) :
    step s = .fault f := by
  rw [step_of_input hm hin]
  simp [hostStep, hostRead, hheld, hv]

/-- Settles O47, selector by selector. -/
theorem hostReadsHaveNoSideEffect : Obligations.HostReadsHaveNoSideEffect := by
  unfold Obligations.HostReadsHaveNoSideEffect
  intro s rest hm hp hr
  have hheld : hostHeld s = false := hostHeld_eq_false_of hp hr
  refine ⟨fun hin => step_of_read hm hheld hin rfl, fun hin => step_of_read hm hheld hin rfl,
    fun hin => ⟨fun hu => ?_, fun v hv => ?_⟩, fun hin => ⟨fun hu => ?_, fun v hv => ?_⟩,
    fun k hin => ⟨fun hu => ?_, fun b hv => ?_⟩⟩
  · exact step_of_read_error hm hheld hin (by rw [readView, hu]; rfl)
  · exact step_of_read hm hheld hin (by rw [readView, hv]; rfl)
  · exact step_of_read_error hm hheld hin (by rw [readView, hu]; rfl)
  · exact step_of_read hm hheld hin (by rw [readView, hv]; rfl)
  · exact step_of_read_error hm hheld hin (by rw [readView, hu]; rfl)
  · exact step_of_read hm hheld hin (by rw [readView, hv]; rfl)

/-! ### The level of the pin -/

theorem endLevel_append_of_ne_nil (a : List PinInterval) {b : List PinInterval} (hb : b ≠ []) :
    endLevel (a ++ b) = endLevel b := by
  induction a with
  | nil => rfl
  | cons p ps ih =>
    obtain ⟨q, qs, hq⟩ := List.exists_cons_of_ne_nil (List.append_ne_nil_of_right_ne_nil ps hb)
    rw [← ih, List.cons_append, hq, endLevel]
    simp

/-- A waveform put together of two that end idle ends idle. -/
theorem endLevel_append_eq_false {a b : List PinInterval} (ha : endLevel a = false) (hb : endLevel b = false) :
    endLevel (a ++ b) = false := by
  cases b with
  | nil => simpa using ha
  | cons p ps => rw [endLevel_append_of_ne_nil a (List.cons_ne_nil p ps), hb]

theorem endLevel_carrierCycles (c : Cfg) (n : Nat) : endLevel (carrierCycles c n) = false := by
  induction n with
  | zero => rfl
  | succ n ih => exact endLevel_append_eq_false rfl ih

theorem endLevel_pinSegment (c : Cfg) (seg : Segment) : endLevel (pinSegment c seg) = false := by
  cases seg with
  | mark n => exact endLevel_carrierCycles c n
  | space d => rfl

theorem endLevel_pinWave (c : Cfg) (q : List Segment) : endLevel (pinWave c q) = false := by
  induction q with
  | nil => rfl
  | cons seg q ih => exact endLevel_append_eq_false (endLevel_pinSegment c seg) ih

/-- Settles O35: every segment ends idle, so a waveform put together of segments does. -/
theorem outputIsIdleBetweenSteps : Obligations.OutputIsIdleBetweenSteps :=
  fun s => endLevel_pinWave s.cfg.cfg s.wave

/-- Settles O48: the table of R36, the level of the pin by `outputIsIdleBetweenSteps`. -/
theorem resetLeavesTheTableOfValues : Obligations.ResetLeavesTheTableOfValues := by
  unfold Obligations.ResetLeavesTheTableOfValues
  have hsym (k : Fin 48) : State.reset.sym[k] = .unset := by simp [State.reset]
  exact ⟨rfl, rfl, rfl, rfl, rfl, rfl, rfl, hsym, rfl, rfl, rfl, outputIsIdleBetweenSteps _, rfl, rfl⟩

/-! ### Runs -/

theorem coreRun_add (M : Host.Core) {n : Nat} {s t : M.State} (m : Nat) (h : M.run n s = .next t) :
    M.run (n + m) s = M.run m t := by
  induction n generalizing s with
  | zero =>
    cases h
    rw [Nat.zero_add]
  | succ n ih =>
    cases hs : M.step s with
    | next u =>
      rw [coreRun_succ M n hs] at h
      rw [Nat.succ_add, coreRun_succ M (n + m) hs, ih h]
    | fault f => simp [Host.Core.run, hs] at h
    | refused r => simp [Host.Core.run, hs] at h

/-- A run goes on from the state it has reached. -/
theorem run_add {n : Nat} {s t : State} (m : Nat) (h : Sys2Proof.core.run n s = .next t) :
    Sys2Proof.core.run (n + m) s = Sys2Proof.core.run m t := coreRun_add Sys2Proof.core m h

/-- A run of one step is the step. -/
theorem run_one {s t : State} (h : step s = .next t) : Sys2Proof.core.run 1 s = .next t := by
  rw [run_succ 0 h, run_zero]

/-! ### The transmitter's course -/

/-- The emit step while the host waits (R125). -/
theorem step_of_waits_cons {s : State} {seg : Segment} {q : List Segment} (hm : s.mark = none)
    (hw : hostWaits s = true) (hb : s.busy = true) (hq : s.txq = seg :: q) :
    step s = .next (emitSegment seg q s) := by
  rw [step_of_hostWaits hm hw, blockStep_of_busy hb, transmitterStep_of_cons hq]

/-- The completion step while the host waits (R126). -/
theorem step_of_waits_nil {s : State} (hm : s.mark = none) (hw : hostWaits s = true) (hb : s.busy = true)
    (hq : s.txq = []) : step s = .next (clearBusy s) := by
  rw [step_of_hostWaits hm hw, blockStep_of_busy hb, transmitterStep_of_nil hq]

/-- Settles O37, by the agent that moves: the block while the host waits, the block let move by `pass`. -/
theorem completionStepLowersBusy : Obligations.CompletionStepLowersBusy := by
  unfold Obligations.CompletionStepLowersBusy
  intro s hm hb hq
  refine ⟨fun hw => ⟨clearBusy s, step_of_waits_nil hm hw hb hq, rfl, rfl, outputIsIdleBetweenSteps _⟩,
    fun rest hin => ⟨clearBusy (setInputs rest s), ?_, rfl, rfl, outputIsIdleBetweenSteps _⟩⟩
  calc step s = blockStep (setInputs rest s) := step_of_input hm hin
    _ = .next (transmitterStep (setInputs rest s)) := blockStep_of_busy hb
    _ = .next (clearBusy (setInputs rest s)) := by rw [transmitterStep_of_nil (s := setInputs rest s) hq]

/-- Whether the host waits depends on nothing an emit step writes. -/
theorem hostWaits_emitSegment (seg : Segment) (q : List Segment) (s : State) :
    hostWaits (emitSegment seg q s) = hostWaits s := rfl

/-- While the host waits, `n` steps emit the first `n` segments (R125, R127). -/
theorem run_emits (n : Nat) {s : State} (hm : s.mark = none) (hw : hostWaits s = true) (hb : s.busy = true)
    (hn : n ≤ s.txq.length) :
    Sys2Proof.core.run n s = .next { s with wave := s.wave ++ s.txq.take n, txq := s.txq.drop n } := by
  induction n generalizing s with
  | zero => simp [run_zero]
  | succ n ih =>
    cases hq : s.txq with
    | nil => simp [hq] at hn
    | cons seg q =>
      have hw' : hostWaits (emitSegment seg q s) = true := (hostWaits_emitSegment seg q s).trans hw
      have hn' : n ≤ q.length := by simpa [hq] using hn
      rw [run_succ n (step_of_waits_cons hm hw hb hq), ih (s := emitSegment seg q s) hm hw' hb hn']
      simp [emitSegment]

/-- Settles O38: the emit steps by `run_emits`, then the completion step. -/
theorem transmissionRunsToCompletion : Obligations.TransmissionRunsToCompletion := by
  unfold Obligations.TransmissionRunsToCompletion
  intro s hm hw hb
  refine ⟨fun n hn => run_emits n hm hw hb hn, ?_⟩
  have hall := run_emits s.txq.length hm hw hb le_rfl
  rw [List.take_length, List.drop_length] at hall
  calc Sys2Proof.core.run (s.txq.length + 1) s
      = Sys2Proof.core.run 1 { s with wave := s.wave ++ s.txq, txq := [] } := run_add 1 hall
    _ = .next { s with wave := s.wave ++ s.txq, txq := [], busy := false } :=
        run_one (step_of_waits_nil hm hw hb rfl)

/-! ### A transmission after an encode -/

theorem exec_transmit (r : BitVec 1) (len : BitVec 6) (s : State) :
    exec (.transmit r len) s = startTx len (fun bs => transmitQueue s.cfg.cfg bs (r == 1)) s := rfl

theorem exec_transmitNh (len : BitVec 6) (s : State) :
    exec (.transmitNh len) s = startTx len (fun bs => frame s.cfg.cfg bs false) s := rfl

/-- A transmit command with a legal length whose symbols are all written loads its queue. -/
theorem startTx_of_written {len : BitVec 6} {queue : List Bool → List Segment} {s : State} {bs : List Bool}
    (hlen : len.toNat ≤ 48) (hbs : s.sym.toList.take len.toNat = bs.map .val) :
    startTx len queue s = .next (loadTx (queue bs) s) := by
  have hread : readSymbols len.toNat s = .ok bs := (readCells_ok_iff 0 _ bs).mpr hbs
  simp [startTx, hlen, hread]

theorem Reg.exists_val_of_isUnset {α : Type} {r : Reg α} (h : r.isUnset = false) : ∃ a, Reg.val a = r := by
  cases r with
  | unset => cases h
  | val a => exact ⟨a, rfl⟩

/-- Where no symbol is `UNSET`, the first `n` cells of the buffer hold values. -/
theorem exists_symbols_of_written {s : State} (h : ∀ k : Fin 48, s.sym[k].isUnset = false) (n : Nat) :
    ∃ bs : List Bool, s.sym.toList.take n = bs.map .val := by
  have hmem : s.sym.toList.take n ∈ Set.range (List.map Reg.val) := by
    rw [Set.range_list_map]
    intro cell hcell
    obtain ⟨k, hk, rfl⟩ := List.mem_iff_getElem.mp (List.mem_of_mem_take hcell)
    exact Reg.exists_val_of_isUnset (by simpa using h ⟨k, by simpa using hk⟩)
  obtain ⟨bs, hbs⟩ := hmem
  exact ⟨bs, hbs.symm⟩

theorem frame_ne_nil (c : Cfg) (bs : List Bool) (header : Bool) : frame c bs header ≠ [] :=
  List.getLast?_isSome.mp (by rw [frame_getLast?]; rfl)

theorem transmitQueue_ne_nil (c : Cfg) (bs : List Bool) (again : Bool) : transmitQueue c bs again ≠ [] :=
  List.getLast?_isSome.mp (by rw [transmitQueue_getLast?]; rfl)

/-- Settles O53: under the invariant the words written mean that every symbol is, and a queue ends with the trailer. -/
theorem transmitAfterEncodeNeverFaults : Obligations.TransmitAfterEncodeNeverFaults := by
  unfold Obligations.TransmitAfterEncodeNeverFaults
  intro s w hs hn hready hdec
  have hwritten : s.nword.isUnset = false := by
    cases hnw : s.nword with
    | unset => exact absurd hnw hn
    | val v => rfl
  have hsyms := exists_symbols_of_written (s := takePort s) (hs.symbolsFollowWords hwritten)
  rw [step_of_ready hready]
  rcases hdec with ⟨r, len, hi, hlen⟩ | ⟨len, hi, hlen⟩
  · obtain ⟨bs, hbs⟩ := hsyms len.toNat
    rw [accept_of_decode hi, exec_transmit, startTx_of_written hlen hbs]
    exact ⟨_, rfl, rfl, transmitQueue_ne_nil _ bs _⟩
  · obtain ⟨bs, hbs⟩ := hsyms len.toNat
    rw [accept_of_decode hi, exec_transmitNh, startTx_of_written hlen hbs]
    exact ⟨_, rfl, rfl, frame_ne_nil _ bs _⟩

end Sys2Proof.Machine

/-! PROOFS. What the commands leave of the symbol buffer and the line: loading back the encoder's symbols (R45), and
an accepted transmission from its word to its completion (R110, R125, R126). -/

namespace Sys2Proof.Machine

/-! ### Octets of the symbol buffer -/

/-- Eight written cells from `SYM[p]` on, the bits of `v` with the most significant first (R42). -/
def HoldsOctet (sym : Vector (Reg Bool) 48) (p : Nat) (v : BitVec 8) : Prop :=
  ∀ j < 8, sym[p + j]? = some (.val (v.getLsbD (7 - j)))

/-- The bits of octet `g` of a word, counted from the most significant one. -/
theorem octet_getLsbD (v : Word24) {g j : Nat} (hg : g < 3) (hj : j < 8) :
    (v.extractLsb' (16 - 8 * g) 8).getLsbD (7 - j) = v.getLsbD (23 - 8 * g - j) := by
  have hbit : 16 - 8 * g + (7 - j) = 23 - 8 * g - j := by omega
  have hj' : 7 - j < 8 := by omega
  rw [BitVec.getLsbD_extractLsb', hbit, decide_eq_true hj', Bool.true_and]

/-- Group `g` of the normal word stands at symbol `16 g` (R92). -/
theorem holdsOctet_expand_normal (n i : Word24) {g : Nat} (hg : g < 3) :
    HoldsOctet ((expand n i).map .val) (16 * g) (n.extractLsb' (16 - 8 * g) 8) := by
  intro j hj
  have hk : 16 * g + j < 48 := by omega
  rw [Vector.getElem?_eq_getElem hk, Vector.getElem_map, expand_normal n i g j hg hj, octet_getLsbD n hg hj]

/-- Group `g` of the inverted word stands at symbol `16 g + 8` (R92). -/
theorem holdsOctet_expand_inverted (n i : Word24) {g : Nat} (hg : g < 3) :
    HoldsOctet ((expand n i).map .val) (16 * g + 8) (i.extractLsb' (16 - 8 * g) 8) := by
  intro j hj
  have hk : 16 * g + 8 + j < 48 := by omega
  rw [Vector.getElem?_eq_getElem hk, Vector.getElem_map, expand_inverted n i g j hg hj, octet_getLsbD i hg hj]

/-- The bits of three octets put together, counted from the most significant one. -/
theorem appendOctets_getLsbD (a b c : BitVec 8) {j : Nat} (hj : j < 8) :
    (a ++ b ++ c).getLsbD (23 - j) = a.getLsbD (7 - j) ∧
    (a ++ b ++ c).getLsbD (23 - (8 + j)) = b.getLsbD (7 - j) ∧
    (a ++ b ++ c).getLsbD (23 - (16 + j)) = c.getLsbD (7 - j) := by
  have ha : 23 - j - 8 - 8 = 7 - j := by omega
  have hb : 23 - (8 + j) - 8 = 7 - j := by omega
  have hc : 23 - (16 + j) = 7 - j := by omega
  simp only [BitVec.getLsbD_append]
  refine ⟨?_, ?_, ?_⟩
  · rw [if_neg (by omega), if_neg (by omega), ha]
  · rw [if_neg (by omega), if_pos (by omega), hb]
  · rw [if_pos (by omega), hc]

/-! ### Loading back what is there -/

/-- Writing a half with the symbols it holds keeps the buffer (R83). -/
theorem halfWritten_eq_self {h : BitVec 1} {data : BitVec 24} {sym : Vector (Reg Bool) 48}
    (hs : ∀ j < 24, sym[24 * h.toNat + j]? = some (.val (data.getLsbD (23 - j)))) : halfWritten h data sym = sym := by
  ext k hk
  have hget := halfWritten_getElem h data sym ⟨k, hk⟩
  split at hget
  next hhalf =>
    have hcell := hs (k % 24) (Nat.mod_lt k (by decide))
    rw [← hhalf, Nat.div_add_mod k 24, Vector.getElem?_eq_getElem hk, Option.some_inj] at hcell
    exact hget.trans hcell.symm
  next => exact hget

/-- Writing a half with the three octets it holds keeps the buffer. -/
theorem halfWritten_octets_eq_self {h : BitVec 1} {a b c : BitVec 8} {sym : Vector (Reg Bool) 48}
    (ha : HoldsOctet sym (24 * h.toNat) a) (hb : HoldsOctet sym (24 * h.toNat + 8) b)
    (hc : HoldsOctet sym (24 * h.toNat + 16) c) : halfWritten h (a ++ b ++ c) sym = sym := by
  refine halfWritten_eq_self fun j hj => ?_
  have hoctet : ∃ q < 3, ∃ m < 8, j = 8 * q + m := ⟨j / 8, by omega, j % 8, by omega, by omega⟩
  obtain ⟨q, hq, m, hm, rfl⟩ := hoctet
  obtain ⟨hbitA, hbitB, hbitC⟩ := appendOctets_getLsbD a b c hm
  match q with
  | 0 => simpa [hbitA] using ha m hm
  | 1 => simpa [hbitB, Nat.add_assoc] using hb m hm
  | 2 => simpa [hbitC, Nat.add_assoc] using hc m hm

theorem exec_loadsym (h : BitVec 1) (data : BitVec 24) (s : State) :
    exec (.loadsym h data) s = .next (writeHalf h data s) := rfl

/-- `LOADSYM` of the symbols a half holds answers the same state. -/
theorem exec_loadsym_eq_self {h : BitVec 1} {data : BitVec 24} {s : State} (hs : halfWritten h data s.sym = s.sym) :
    exec (.loadsym h data) s = .next s := by
  rw [exec_loadsym, writeHalf, hs]

/-- Settles O25: after `ENCODE` the halves hold the octets of `LOADSYM`'s data, half 0 from symbol 0 on the groups
N0, I0, N1 and half 1 from symbol 24 on the groups I1, N2, I2. -/
theorem loadsymReproducesTheEncodersSymbols : Obligations.LoadsymReproducesTheEncodersSymbols := by
  unfold Obligations.LoadsymReproducesTheEncodersSymbols
  intro s t n i h hn hi
  cases commandEffect_of_exec h with
  | encode n' i' =>
    cases hn
    cases hi
    exact ⟨exec_loadsym_eq_self (halfWritten_octets_eq_self
        (holdsOctet_expand_normal n i (g := 0) (by decide)) (holdsOctet_expand_inverted n i (g := 0) (by decide))
        (holdsOctet_expand_normal n i (g := 1) (by decide))),
      exec_loadsym_eq_self (halfWritten_octets_eq_self
        (holdsOctet_expand_inverted n i (g := 1) (by decide)) (holdsOctet_expand_normal n i (g := 2) (by decide))
        (holdsOctet_expand_inverted n i (g := 2) (by decide)))⟩

/-! ### From acceptance to completion -/

/-- A ready machine accepts a `TRANSMIT` word whose symbols are written: the port is emptied and the queue loaded. -/
theorem step_of_transmit {s : State} {w : CmdWord} {r : BitVec 1} {len : BitVec 6} {bs : List Bool}
    (hready : Ready w s) (hi : decode w = .ok (.transmit r len)) (hlen : len.toNat ≤ 48)
    (hbs : s.sym.toList.take len.toNat = bs.map .val) :
    step s = .next (loadTx (transmitQueue s.cfg.cfg bs (r == 1)) (takePort s)) := by
  rw [step_of_ready hready, accept_of_decode hi, exec_transmit]
  exact startTx_of_written (s := takePort s) hlen hbs

/-- Settles O39: the step of acceptance, then the loaded queue's course to completion (`transmissionRunsToCompletion`),
which lowers `BUSY` to what it was at the ready machine. -/
theorem acceptedTransmitEmitsItsFrames : Obligations.AcceptedTransmitEmitsItsFrames := by
  unfold Obligations.AcceptedTransmitEmitsItsFrames
  intro s w r len bs hready hwaits hi hlen hbs
  have hloaded := step_of_transmit hready hi hlen hbs
  obtain ⟨hmark, -, hbusy, -, -⟩ := hready
  generalize transmitQueue s.cfg.cfg bs (r == 1) = q at hloaded ⊢
  have hrun := (transmissionRunsToCompletion (loadTx q (takePort s)) hmark hwaits rfl).2
  calc Sys2Proof.core.run (q.length + 2) s
      = Sys2Proof.core.run (q.length + 1) (loadTx q (takePort s)) := run_succ (q.length + 1) hloaded
    _ = .next { takePort s with wave := s.wave ++ q, txq := [], busy := false } := hrun
    _ = .next { s with port := none, wave := s.wave ++ q, txq := [] } := by rw [← hbusy]; rfl

end Sys2Proof.Machine

/-! PROOFS. The command words: fields and their places, the six formats as one relation, the round trips of the
decoder and the encoder, and the decoder's refusals (spec/30_encoding.md R55 to R65, R68, R174). -/

namespace Sys2Proof

/-! ### Fields and places -/

@[simp] theorem field_getLsbD (w : CmdWord) (lo n k : Nat) :
    (field w lo n).getLsbD k = (decide (k < n) && w.getLsbD (lo + k)) := BitVec.getLsbD_extractLsb' ..

@[simp] theorem place_getLsbD {n : Nat} (v : BitVec n) (lo k : Nat) :
    (place v lo).getLsbD k = (decide (k < 32) && (!decide (k < lo) && v.getLsbD (k - lo))) := by
  simp only [place, BitVec.getLsbD_shiftLeft, BitVec.getLsbD_setWidth]
  cases h : decide (k < 32)
  · simp
  · have hk : k - lo < 32 := by have := of_decide_eq_true h; omega
    simp [hk]

@[simp] theorem place_zero (n lo : Nat) : place (0 : BitVec n) lo = 0 := by
  simp [place]

@[simp] theorem field_zero (lo n : Nat) : field 0 lo n = 0 := by
  simp [field]

@[simp] theorem field_or (a b : CmdWord) (lo n : Nat) : field (a ||| b) lo n = field a lo n ||| field b lo n := by
  simp [field, BitVec.extractLsb'_or]

/-- A field placed in a word is read back whole. -/
@[simp] theorem field_place_same {n lo : Nat} (v : BitVec n) (h : lo + n ≤ 32) : field (place v lo) lo n = v := by
  apply BitVec.eq_of_getLsbD_eq
  intro k hk
  have hk' : lo + k < 32 := by omega
  rw [field_getLsbD, place_getLsbD, Nat.add_sub_cancel_left]
  simp [-BitVec.getLsbD_eq_getElem, hk, hk']

/-- A field placed beside the one that is read is not seen. -/
@[simp] theorem field_place_disjoint {m n lo lo' : Nat} (v : BitVec m) (h : lo + n ≤ lo' ∨ lo' + m ≤ lo) :
    field (place v lo') lo n = 0 := by
  apply BitVec.eq_of_getLsbD_eq
  intro k hk
  rcases h with h | h
  · have hbelow : lo + k < lo' := by omega
    simp [hbelow]
  · have habove : m ≤ lo + k - lo' := by omega
    simp [BitVec.getLsbD_of_ge v _ habove]

/-- The bits of a word that a field covers. -/
def fieldMask (lo n : Nat) : CmdWord := place (BitVec.allOnes n) lo

theorem fieldMask_getLsbD (lo n k : Nat) :
    (fieldMask lo n).getLsbD k = (decide (k < 32) && (!decide (k < lo) && decide (k - lo < n))) := by
  rw [fieldMask, place_getLsbD, BitVec.getLsbD_allOnes]

/-- A field put back where it was read leaves of the word what the field covers. -/
theorem place_field (w : CmdWord) (lo n : Nat) : place (field w lo n) lo = w &&& fieldMask lo n := by
  apply BitVec.eq_of_getLsbD_eq
  intro k hk
  rw [place_getLsbD, field_getLsbD, BitVec.getLsbD_and, fieldMask_getLsbD]
  by_cases hlo : k < lo
  · simp [hlo]
  · have hadd : lo + (k - lo) = k := by omega
    simp [hlo, hk, hadd, Bool.and_comm]

/-- A field is 0 exactly where the word has no bit that the field covers. -/
theorem field_eq_zero_iff (w : CmdWord) {lo n : Nat} (h : lo + n ≤ 32) :
    field w lo n = 0 ↔ w &&& fieldMask lo n = 0 := by
  rw [← place_field]
  constructor
  · intro hz
    rw [hz, place_zero]
  · intro hz
    rw [← field_place_same (field w lo n) h, hz, field_zero]

/-- The opcode is the word's top four bits (R56). -/
theorem opcode_toNat (w : CmdWord) : (opcode w).toNat = w.toNat / 2 ^ 28 := by
  have hw := w.isLt
  rw [opcode, field, BitVec.extractLsb'_toNat, Nat.shiftRight_eq_div_pow, Nat.mod_eq_of_lt]
  omega

theorem opcode_eq_iff (w : CmdWord) (op : BitVec 4) : opcode w = op ↔ w.toNat / 2 ^ 28 = op.toNat := by
  rw [← BitVec.toNat_inj, opcode_toNat]

/-! ### The six formats -/

/-- `Format w op lo n i`: with the opcode `op` the word `w` has its must-be-0 bits in the field of width `n` at `lo`,
and reads as the command `i` where they are 0 (R57 to R59, R64, R65). -/
inductive Format (w : CmdWord) : BitVec 4 → Nat → Nat → Instr → Prop
  | setstate : Format w 1 23 5
      (.setstate (field w 0 5) (field w 5 3) (field w 8 3) (field w 11 6) (field w 17 6))
  | encode : Format w 2 0 28 .encode
  | encodeSpecial : Format w 3 3 25 (.encodeSpecial (field w 0 3))
  | loadsym : Format w 4 25 3 (.loadsym (field w 24 1) (field w 0 24))
  | transmit : Format w 5 7 21 (.transmit (field w 6 1) (field w 0 6))
  | transmitNh : Format w 6 6 22 (.transmitNh (field w 0 6))

/-- The decoder asks of a word of a format that its must-be-0 field is 0, and nothing else. -/
theorem decode_of_format {w : CmdWord} {op : BitVec 4} {lo n : Nat} {i : Instr} (hop : opcode w = op)
    (h : Format w op lo n i) : decode w = requireZero (field w lo n) i := by
  cases h <;> simp [decode, hop]

theorem decode_of_reserved_opcode {w : CmdWord} (h : w.toNat / 2 ^ 28 = 0 ∨ 7 ≤ w.toNat / 2 ^ 28) :
    decode w = .error .reservedOpcode := by
  rw [← opcode_toNat] at h
  unfold decode
  split
  case h_7 => rfl
  all_goals omega

theorem opcode_cases : ∀ op : BitVec 4, (op.toNat = 0 ∨ 7 ≤ op.toNat) ∨
    op = 1 ∨ op = 2 ∨ op = 3 ∨ op = 4 ∨ op = 5 ∨ op = 6 := by decide

/-- A property of the must-be-0 field of a word's format, said opcode by opcode. -/
theorem exists_format_iff (w : CmdWord) (op : BitVec 4) (p : Nat → Nat → Prop) :
    (∃ lo n i, Format w op lo n i ∧ p lo n) ↔
      (op = 1 ∧ p 23 5) ∨ (op = 2 ∧ p 0 28) ∨ (op = 3 ∧ p 3 25) ∨ (op = 4 ∧ p 25 3) ∨ (op = 5 ∧ p 7 21) ∨
        (op = 6 ∧ p 6 22) := by
  constructor
  · rintro ⟨lo, n, i, hf, hp⟩
    cases hf <;> simp [hp]
  · rintro (⟨rfl, hp⟩ | ⟨rfl, hp⟩ | ⟨rfl, hp⟩ | ⟨rfl, hp⟩ | ⟨rfl, hp⟩ | ⟨rfl, hp⟩)
    · exact ⟨_, _, _, .setstate, hp⟩
    · exact ⟨_, _, _, .encode, hp⟩
    · exact ⟨_, _, _, .encodeSpecial, hp⟩
    · exact ⟨_, _, _, .loadsym, hp⟩
    · exact ⟨_, _, _, .transmit, hp⟩
    · exact ⟨_, _, _, .transmitNh, hp⟩

/-- A word has a reserved opcode or one of the six formats (R56, R68). -/
theorem reserved_or_format (w : CmdWord) :
    (w.toNat / 2 ^ 28 = 0 ∨ 7 ≤ w.toNat / 2 ^ 28) ∨ ∃ lo n i, Format w (opcode w) lo n i := by
  rw [← opcode_toNat]
  refine (opcode_cases (opcode w)).imp_right fun h => ?_
  obtain ⟨lo, n, i, hf, -⟩ := (exists_format_iff w (opcode w) fun _ _ => True).mpr (by simpa using h)
  exact ⟨lo, n, i, hf⟩

theorem requireZero_eq_ok_iff {n : Nat} (z : BitVec n) (i j : Instr) : requireZero z i = .ok j ↔ z = 0 ∧ i = j := by
  unfold requireZero
  split <;> simp_all

theorem requireZero_eq_error_iff {n : Nat} (z : BitVec n) (i : Instr) (e : DecodeError) :
    requireZero z i = .error e ↔ z ≠ 0 ∧ .reservedBits = e := by
  unfold requireZero
  split <;> simp_all

theorem decode_eq_ok_of_format {w : CmdWord} {op : BitVec 4} {lo n : Nat} {i j : Instr} (hop : opcode w = op)
    (h : Format w op lo n i) (hz : field w lo n = 0) (hij : i = j) : decode w = .ok j :=
  (decode_of_format hop h).trans ((requireZero_eq_ok_iff _ i j).mpr ⟨hz, hij⟩)

theorem decode_eq_ok_iff (w : CmdWord) (i : Instr) :
    decode w = .ok i ↔ ∃ lo n, Format w (opcode w) lo n i ∧ field w lo n = 0 := by
  constructor
  · intro h
    rcases reserved_or_format w with hr | ⟨lo, n, j, hf⟩
    · simp [decode_of_reserved_opcode hr] at h
    · rw [decode_of_format rfl hf, requireZero_eq_ok_iff] at h
      obtain ⟨hz, rfl⟩ := h
      exact ⟨lo, n, hf, hz⟩
  · rintro ⟨lo, n, hf, hz⟩
    exact decode_eq_ok_of_format rfl hf hz rfl

theorem decode_eq_reservedBits_iff (w : CmdWord) :
    decode w = .error .reservedBits ↔ ∃ lo n i, Format w (opcode w) lo n i ∧ field w lo n ≠ 0 := by
  constructor
  · intro h
    rcases reserved_or_format w with hr | ⟨lo, n, i, hf⟩
    · simp [decode_of_reserved_opcode hr] at h
    · rw [decode_of_format rfl hf, requireZero_eq_error_iff] at h
      exact ⟨lo, n, i, hf, h.1⟩
  · rintro ⟨lo, n, i, hf, hz⟩
    exact (decode_of_format rfl hf).trans ((requireZero_eq_error_iff _ i _).mpr ⟨hz, rfl⟩)

/-! ### The round trips -/

theorem opcode_encode (i : Instr) : opcode (encode i) = opcodeOf i := by
  cases i with
  | setstate temp mode fan ton toff => exact Laws.CarriesOpcode.setstate temp mode fan ton toff
  | encode => exact Laws.CarriesOpcode.encode
  | encodeSpecial sc => exact Laws.CarriesOpcode.encodeSpecial sc
  | loadsym h data => exact Laws.CarriesOpcode.loadsym h data
  | transmit r len => exact Laws.CarriesOpcode.transmit r len
  | transmitNh len => exact Laws.CarriesOpcode.transmitNh len

/-- Settles O1: the word has its command's opcode, and each field is read back from its place. -/
theorem encodeThenDecodeGivesTheCommand : Obligations.EncodeThenDecodeGivesTheCommand := by
  unfold Obligations.EncodeThenDecodeGivesTheCommand
  intro i
  have hop := opcode_encode i
  cases i with
  | setstate => exact decode_eq_ok_of_format hop .setstate (by simp [encode]) (by simp [encode])
  | encode => exact decode_eq_ok_of_format hop .encode (by simp [encode]) rfl
  | encodeSpecial => exact decode_eq_ok_of_format hop .encodeSpecial (by simp [encode]) (by simp [encode])
  | loadsym => exact decode_eq_ok_of_format hop .loadsym (by simp [encode]) (by simp [encode])
  | transmit => exact decode_eq_ok_of_format hop .transmit (by simp [encode]) (by simp [encode])
  | transmitNh => exact decode_eq_ok_of_format hop .transmitNh (by simp [encode]) (by simp [encode])

/-- The fields of a word of a format, put back in their places, are the word without its must-be-0 bits: what the fields
and the opcode cover is what the must-be-0 field does not. -/
theorem encode_of_format {w : CmdWord} {lo n : Nat} {i : Instr} (h : Format w (opcode w) lo n i) :
    encode i = w &&& ~~~fieldMask lo n := by
  have htop : place (opcode w) 28 = w &&& fieldMask 28 4 := place_field w 28 4
  generalize opcode w = op at h htop
  cases h
  all_goals
    rw [BitVec.ofNat_eq_ofNat] at htop
    simp only [encode, htop, place_field, ← BitVec.and_or_distrib_left]
    exact congrArg (w &&& ·) (by decide)

theorem and_not_of_and_eq_zero {w m : CmdWord} (h : w &&& m = 0) : w &&& ~~~m = w := by
  calc w &&& ~~~m = (w &&& m) ||| (w &&& ~~~m) := by rw [h, BitVec.ofNat_eq_ofNat, BitVec.zero_or]
    _ = w &&& (m ||| ~~~m) := BitVec.and_or_distrib_left.symm
    _ = w := by rw [BitVec.or_not_self, BitVec.and_allOnes]

/-- Settles O2: a word that decodes has no bit in the must-be-0 field, so `encode_of_format` gives it back. -/
theorem decodedWordIsTheCommandsEncoding : Obligations.DecodedWordIsTheCommandsEncoding := by
  unfold Obligations.DecodedWordIsTheCommandsEncoding
  intro w i h
  obtain ⟨lo, n, hf, hz⟩ := (decode_eq_ok_iff w i).mp h
  have hmask : w &&& fieldMask lo n = 0 := by rw [← place_field, hz, place_zero]
  rw [encode_of_format hf, and_not_of_and_eq_zero hmask]

/-! ### The decoder's refusals -/

theorem decode_eq_reservedOpcode_iff (w : CmdWord) :
    decode w = .error .reservedOpcode ↔ w.toNat / 2 ^ 28 = 0 ∨ 7 ≤ w.toNat / 2 ^ 28 := by
  refine ⟨fun h => ?_, decode_of_reserved_opcode⟩
  rcases reserved_or_format w with hr | ⟨lo, n, i, hf⟩
  · exact hr
  · simp [decode_of_format rfl hf, requireZero_eq_error_iff] at h

/-- Settles O3: each must-be-0 field is the mask of its bits. -/
theorem decodeRefusesExactlyTheReservedWords : Obligations.DecodeRefusesExactlyTheReservedWords := by
  unfold Obligations.DecodeRefusesExactlyTheReservedWords
  intro w
  refine ⟨decode_eq_reservedOpcode_iff w, ?_⟩
  rw [decode_eq_reservedBits_iff, exists_format_iff w _ (fun lo n => field w lo n ≠ 0)]
  simp only [opcode_eq_iff, ne_eq, field_eq_zero_iff, Nat.reduceAdd, Nat.reduceLeDiff]
  rfl

/-- Settles O4: each word is the encoding of its command. -/
theorem specExampleWordsDecode : Obligations.SpecExampleWordsDecode := by
  unfold Obligations.SpecExampleWordsDecode
  have hdec {w : CmdWord} {i : Instr} (h : encode i = w) : decode w = .ok i := h ▸ encodeThenDecodeGivesTheCommand i
  exact ⟨hdec rfl, hdec rfl, hdec rfl, hdec rfl, hdec rfl, hdec rfl⟩

end Sys2Proof

/-! PROOFS. Which configurations the model accepts and what they give the codes, the operands that a command refuses,
and what the symbol buffer and the host's power operations do with the formats (spec/30_encoding.md R64 to R73). -/

namespace Sys2Proof.Machine

/-! ### The checks of a configuration -/

theorem tableFits_iff {n : Nat} (width : Nat) (t : Vector Nat n) :
    tableFits width t = true ↔ ∀ k : Fin n, t[k] < 2 ^ width := by
  simp [tableFits, Fin.forall_iff]

theorem chkWidths_iff (c : Cfg) : chkWidths c = true ↔
    c.hdr < 2 ^ 8 ∧ (∀ k : Fin 14, c.tempCode[k] < 2 ^ 4) ∧ c.noTempCode < 2 ^ 4 ∧ c.tempFallback < 2 ^ 4 ∧
      (∀ k : Fin 5, c.modeCode[k] < 2 ^ 2) ∧ c.modeFallback < 2 ^ 2 ∧ (∀ k : Fin 5, c.fanCode[k] < 2 ^ 3) ∧
      c.fanFallback < 2 ^ 3 ∧ (∀ k : Fin 36, c.toffCode[k] < 2 ^ c.tw) ∧ c.toffFallback < 2 ^ c.tw ∧
      (∀ k : Fin 36, c.tonCode[k] < 2 ^ c.tw) ∧ c.noTon < 2 ^ c.tw ∧ c.tonFallback < 2 ^ c.tw ∧
      c.tmask < 2 ^ 24 ∧ c.tonActive < 2 ^ 24 ∧ (∀ k : Fin 6, c.special[k] < 2 ^ 24) := by
  simp only [chkWidths, Bool.and_eq_true, decide_eq_true_eq, tableFits_iff, and_assoc]

theorem chkTw_iff (c : Cfg) : chkTw c = true ↔ 1 ≤ c.tw ∧ c.tw ≤ 16 := by
  simp only [chkTw, Bool.and_eq_true, decide_eq_true_eq]

theorem chkBelowHdr_iff (c : Cfg) : chkBelowHdr c = true ↔
    c.tShift + 4 ≤ 16 ∧ c.mShift + 2 ≤ 16 ∧ c.fShift + 3 ≤ 16 ∧ c.offShift + c.tw ≤ 16 := by
  simp only [chkBelowHdr, Bool.and_eq_true, decide_eq_true_eq, and_assoc]

/-- The span of `m` bits at `a` and the span of `n` bits at `b` share no bit. -/
def ShareNoBit (a m b n : Nat) : Prop := ∀ k, ¬ ((a ≤ k ∧ k < a + m) ∧ (b ≤ k ∧ k < b + n))

/-- One of two spans that hold a bit each ends before the other begins exactly where they share no bit. -/
theorem spansDisjoint_iff {a m b n : Nat} (hm : 0 < m) (hn : 0 < n) :
    spansDisjoint a m b n = true ↔ ShareNoBit a m b n := by
  simp only [spansDisjoint, Bool.or_eq_true, decide_eq_true_eq]
  refine ⟨fun h k => by omega, fun h => ?_⟩
  have hmax := h (max a b)
  omega

/-- `CHK_DISJOINT` orders an empty span too, though it shares no bit with any; `CHK_TW` excludes an empty one. -/
theorem chkDisjoint_iff {c : Cfg} (htw : 0 < c.tw) : chkDisjoint c = true ↔
    ShareNoBit c.tShift 4 c.mShift 2 ∧ ShareNoBit c.tShift 4 c.fShift 3 ∧ ShareNoBit c.tShift 4 c.offShift c.tw ∧
      ShareNoBit c.mShift 2 c.fShift 3 ∧ ShareNoBit c.mShift 2 c.offShift c.tw ∧
      ShareNoBit c.fShift 3 c.offShift c.tw := by
  simp only [chkDisjoint, Bool.and_eq_true, and_assoc, spansDisjoint_iff, Nat.ofNat_pos, htw]

theorem chkOnSpan_iff (c : Cfg) : chkOnSpan c = true ↔ c.onShift + c.tw ≤ 24 := by
  simp only [chkOnSpan, decide_eq_true_eq]

theorem chkFlagInMask_iff (c : Cfg) :
    chkFlagInMask c = true ↔ c.tflagPos < 24 ∧ c.tmask.testBit c.tflagPos = true := by
  simp only [chkFlagInMask, Bool.and_eq_true, decide_eq_true_eq]

theorem chkSpaces_iff (c : Cfg) : chkSpaces c = true ↔ c.zeroSpaceNs < c.oneSpaceNs := by
  simp only [chkSpaces, decide_eq_true_eq]

theorem chkMarks_iff (c : Cfg) : chkMarks c = true ↔
    1 ≤ c.hdrMarkCyc ∧ 1 ≤ c.bitMarkCyc ∧ 1 ≤ c.carrierHighNs ∧ 1 ≤ c.carrierLowNs := by
  simp only [chkMarks, Bool.and_eq_true, decide_eq_true_eq, and_assoc]

/-! ### Power-up -/

theorem failedCheck_eq_none_iff (c : Cfg) : failedCheck c = none ↔ ∀ k, passes c k = true := by
  refine ⟨fun h k => WfCfg.passes ⟨c, h⟩ k, fun h => ?_⟩
  simp [failedCheck, h]

theorem passes_of_failedCheck {c : Cfg} {k : CfgCheck} (h : failedCheck c = some k) : passes c k = false := by
  simpa using List.find?_some h

/-- `CHK_DISJOINT` is named only where `CHK_TW`, which comes before it, has passed. -/
theorem chkTw_of_failedCheck_disjoint {c : Cfg} (h : failedCheck c = some .disjoint) : chkTw c = true := by
  by_contra htw
  cases hw : chkWidths c <;> simp [failedCheck, passes, hw, htw] at h

theorem powerUp_of_passes {c : Cfg} (h : failedCheck c = none) : powerUp c = .next (State.resetWith ⟨c, h⟩) := by
  unfold powerUp
  split
  · rename_i k hk
    cases h.symm.trans hk
  · rfl

theorem powerUp_of_failedCheck {c : Cfg} {k : CfgCheck} (h : failedCheck c = some k) :
    powerUp c = .refused (.config k) := by
  unfold powerUp
  split
  · rename_i j hj
    cases h.symm.trans hj
    rfl
  · rename_i hn
    cases h.symm.trans hn

/-- Settles O50: each check is what is written out, `CHK_DISJOINT` where `CHK_TW` has passed. -/
theorem powerUpAcceptsExactlyWellFormedConfigurations :
    Obligations.PowerUpAcceptsExactlyWellFormedConfigurations := by
  unfold Obligations.PowerUpAcceptsExactlyWellFormedConfigurations
  intro c disjoint ok
  have hok (k : CfgCheck) (htw : k = .disjoint → chkTw c = true) : passes c k = true ↔ ok k := by
    cases k with
    | widths => exact chkWidths_iff c
    | tw => exact chkTw_iff c
    | belowHdr => exact chkBelowHdr_iff c
    | disjoint => exact chkDisjoint_iff ((chkTw_iff c).mp (htw rfl)).1
    | onSpan => exact chkOnSpan_iff c
    | flagInMask => exact chkFlagInMask_iff c
    | spaces => exact chkSpaces_iff c
    | marks => exact chkMarks_iff c
  constructor
  · intro hall
    have htw : chkTw c = true := (hok .tw (by simp)).mpr (hall .tw)
    have hnone := (failedCheck_eq_none_iff c).mpr fun k => (hok k fun _ => htw).mpr (hall k)
    exact ⟨⟨c, hnone⟩, rfl, powerUp_of_passes hnone⟩
  · rintro ⟨j, hj⟩
    cases hfail : failedCheck c with
    | none =>
      have hpass := (failedCheck_eq_none_iff c).mp hfail
      exact absurd ((hok j fun _ => hpass .tw).mp (hpass j)) hj
    | some k =>
      refine ⟨k, fun hk => ?_, powerUp_of_failedCheck hfail⟩
      have htw (hd : k = .disjoint) : chkTw c = true := chkTw_of_failedCheck_disjoint (hd ▸ hfail)
      cases ((hok k htw).mpr hk).symm.trans (passes_of_failedCheck hfail)

/-! ### The codes -/

theorem lookup_lt_of_table_lt {n bound fallback : Nat} {t : Vector Nat n} (ht : ∀ k : Fin n, t[k] < bound)
    (hf : fallback < bound) (k : Nat) : lookup t fallback k < bound := by
  by_cases hk : k < n
  · rw [lookup_of_lt t fallback hk]
    exact ht ⟨k, hk⟩
  · rwa [lookup_of_not_lt t fallback hk]

/-- Settles O15: each code is a table entry or a fallback, and `CHK_WIDTHS` bounds both. -/
theorem codesFitTheirFields : Obligations.CodesFitTheirFields := by
  unfold Obligations.CodesFitTheirFields
  intro w r
  obtain ⟨-, htemp, hnoTemp, htempF, hmode, hmodeF, hfan, hfanF, htoff, htoffF, hton, hnoTon, htonF, -⟩ :=
    (chkWidths_iff w.cfg).mp (w.passes .widths)
  refine ⟨?_, lookup_lt_of_table_lt hmode hmodeF _, lookup_lt_of_table_lt hfan hfanF _,
    lookup_lt_of_table_lt htoff htoffF _, ?_⟩
  · unfold tCode
    split_ifs
    · exact hnoTemp
    · exact lookup_lt_of_table_lt htemp htempF _
    · exact htempF
  · unfold onCode
    split_ifs
    · exact hnoTon
    · exact lookup_lt_of_table_lt hton htonF _

/-! ### LOADSYM -/

/-- The half that is written (R64): cell `24 h + k` takes `DATA[23 - k]`. -/
theorem halfWritten_same (h : BitVec 1) (data : BitVec 24) (sym : Vector (Reg Bool) 48) (k : Fin 24) :
    (halfWritten h data sym)[24 * h.toNat + k.val]? = some (.val (data.getLsbD (23 - k.val))) := by
  have hcell : 24 * h.toNat + k.val < 48 := by omega
  have hdiv : (24 * h.toNat + k.val) / 24 = h.toNat := by omega
  have hmod : (24 * h.toNat + k.val) % 24 = k.val := by omega
  have hget := halfWritten_getElem h data sym ⟨24 * h.toNat + k.val, hcell⟩
  rw [if_pos hdiv, hmod] at hget
  rw [Vector.getElem?_eq_getElem hcell, ← hget]
  rfl

/-- The other half is kept. -/
theorem halfWritten_other (h : BitVec 1) (data : BitVec 24) (sym : Vector (Reg Bool) 48) (k : Fin 24) :
    (halfWritten h data sym)[24 * (1 - h.toNat) + k.val]? = sym[24 * (1 - h.toNat) + k.val]? := by
  have hcell : 24 * (1 - h.toNat) + k.val < 48 := by omega
  have hdiv : (24 * (1 - h.toNat) + k.val) / 24 ≠ h.toNat := by omega
  have hget := halfWritten_getElem h data sym ⟨24 * (1 - h.toNat) + k.val, hcell⟩
  rw [if_neg hdiv] at hget
  rw [Vector.getElem?_eq_getElem hcell, Vector.getElem?_eq_getElem hcell]
  exact congrArg some hget

/-- Settles O23, cell by cell of the two halves. -/
theorem loadsymWritesOneHalf : Obligations.LoadsymWritesOneHalf := by
  unfold Obligations.LoadsymWritesOneHalf
  intro h data s
  refine ⟨writeHalf h data s, exec_loadsym h data s, fun k => ?_, fun k => ?_, rfl⟩
  · rw [writeHalf_sym]
    exact halfWritten_same h data s.sym k
  · rw [writeHalf_sym]
    exact halfWritten_other h data s.sym k

/-! ### The words of the host's power operations -/

theorem encode_transmit_fullLength (r : BitVec 1) : encode (.transmit r fullLength) = 0x50000030 ||| place r 6 := by
  have hrest : place 0x5#4 28 ||| place fullLength 0 = 0x50000030 := by decide
  rw [← hrest, encode, BitVec.or_assoc, BitVec.or_assoc, BitVec.or_comm (place r 6)]

theorem map_encode_sendState (r : Bool) :
    (sendState r).map encode = [0x20000000, 0x50000030 ||| place (repeatBit r) 6] := by
  rw [sendState, List.map_cons, List.map_singleton, encode_transmit_fullLength]
  rfl

theorem map_encode_sendSpecial (sc : SpecialCmd) (r : Bool) :
    (sendSpecial sc r).map encode =
      [encode (.encodeSpecial (specialCode sc)), 0x50000030 ||| place (repeatBit r) 6] := by
  rw [sendSpecial, List.map_cons, List.map_singleton, encode_transmit_fullLength]

/-- Settles O58: power off is `sendspec POWER_OFF`, power on `setstate` and `sendstate` (R73, R148, R149). -/
theorem powerOffAndOnCommands : Obligations.PowerOffAndOnCommands := by
  unfold Obligations.PowerOffAndOnCommands
  intro p h off on
  refine ⟨rfl, fun hp => ?_, rfl, ?_⟩
  · have hoff : off.2 = sendSpecial .powerOff (p.hostRepeat .powerOff) := if_pos (.inl hp)
    rw [hoff, map_encode_sendSpecial]
    rfl
  · exact congrArg (encode (setStateOf h) :: ·) (map_encode_sendState (p.hostRepeat .powerOn))

/-! ### What is refused -/

theorem accept_of_decode_error {w : CmdWord} {e : DecodeError} {s : State} (he : decode w = .error e) :
    accept w s = .refused (refusalOf e) := by
  simp [accept, he, refuse]

/-- A free host that issues a word has it accepted in that step (R20, R55). -/
theorem step_of_issue {s : State} {w : CmdWord} {rest : List HostAct} (hm : s.mark = none) (hf : HostFree s)
    (hin : s.inputs = .write w :: rest) : step s = accept w (setInputs rest s) := by
  obtain ⟨hb, hp, hr⟩ := hf
  rw [step_of_input hm hin]
  simp [hostStep, hostWrite, hostHeld_eq_false_of hp hr, hb]

/-- Settles O6: either way the step is the acceptance of the word. -/
theorem stepRefusesAReservedWord : Obligations.StepRefusesAReservedWord := by
  unfold Obligations.StepRefusesAReservedWord
  intro s w hw
  have haccept : ∃ t, step s = accept w t := by
    rcases hw with hready | ⟨hm, hf, rest, hin⟩
    · exact ⟨s, step_of_ready hready⟩
    · exact ⟨setInputs rest s, step_of_issue hm hf hin⟩
  obtain ⟨t, ht⟩ := haccept
  exact ⟨fun he => ht.trans (accept_of_decode_error he), fun he => ht.trans (accept_of_decode_error he)⟩

theorem specialConst_eq_none_iff (c : Cfg) (sc : BitVec 3) : specialConst c sc = none ↔ ¬ legalSpecial sc := by
  rw [specialConst, Vector.getElem?_eq_none_iff, legalSpecial]
  omega

theorem execEncodeSpecial_refused_iff (sc : BitVec 3) (s : State) (r : Refusal) :
    execEncodeSpecial sc s = .refused r ↔ ¬ legalSpecial sc ∧ .reservedSpecial = r := by
  rw [← specialConst_eq_none_iff s.cfg.cfg sc, execEncodeSpecial]
  cases specialConst s.cfg.cfg sc with
  | some v => simp
  | none => simp [refuse]

theorem startTx_refused_iff (len : BitVec 6) (queue : List Bool → List Segment) (s : State) (r : Refusal) :
    startTx len queue s = .refused r ↔ ¬ legalLength len ∧ .lenRange = r := by
  unfold startTx
  split_ifs with hlen
  · cases readSymbols len.toNat s with
    | ok bs => simp [hlen]
    | error f => simp [hlen]
  · simp [hlen, refuse]

/-- The reason for which a command refuses an ill-formed operand, if it has one that can be ill-formed (R171). -/
def operandRefusal : Instr → Option Refusal
  | .encodeSpecial _ => some .reservedSpecial
  | .transmit _ _ | .transmitNh _ => some .lenRange
  | .setstate _ _ _ _ _ | .encode | .loadsym _ _ => none

/-- A command is refused exactly where its operand is ill-formed, and for its own reason (R68, R171). -/
theorem exec_refused_iff (i : Instr) (s : State) (r : Refusal) :
    exec i s = .refused r ↔ ¬ WellFormed i ∧ operandRefusal i = some r := by
  cases i with
  | setstate | encode | loadsym => simp [exec, execSetstate, execEncode, execLoadsym, wellFormed]
  | encodeSpecial sc => simp [exec, execEncodeSpecial_refused_iff, wellFormed, operandRefusal]
  | transmit b len => simp [exec_transmit, startTx_refused_iff, wellFormed, operandRefusal]
  | transmitNh len => simp [exec_transmitNh, startTx_refused_iff, wellFormed, operandRefusal]

theorem operandRefusal_of_not_wellFormed {i : Instr} (h : ¬ WellFormed i) :
    operandRefusal i = some .reservedSpecial ∨ operandRefusal i = some .lenRange := by
  cases i with
  | setstate | encode | loadsym => exact absurd rfl h
  | encodeSpecial => exact .inl rfl
  | transmit | transmitNh => exact .inr rfl

/-- Settles O9, by `exec_refused_iff` and the commands that have a reason. -/
theorem commandsRefuseExactlyIllFormedOperands : Obligations.CommandsRefuseExactlyIllFormedOperands := by
  unfold Obligations.CommandsRefuseExactlyIllFormedOperands
  intro i s
  simp only [exec_refused_iff, ← and_or_left]
  refine ⟨⟨fun h => ⟨h, operandRefusal_of_not_wellFormed h⟩, And.left⟩, fun r ⟨_, hr⟩ => ?_⟩
  cases i with
  | setstate | encode | loadsym => cases hr
  | encodeSpecial sc => cases hr; exact .inl ⟨rfl, sc, rfl⟩
  | transmit b len => cases hr; exact .inr ⟨rfl, .inl ⟨b, len, rfl⟩⟩
  | transmitNh len => cases hr; exact .inr ⟨rfl, .inr ⟨len, rfl⟩⟩

end Sys2Proof.Machine

/-! PROOFS. The encoder: the codes of the operands, the bits of the two words, the symbols they become, and what the
encoder's commands do on their command words (spec/40_encoder.md R80 to R96). -/

namespace Sys2Proof.Machine

/-! ### The codes of the operands -/

theorem lookup_of_eq {n : Nat} (t : Vector Nat n) (fallback : Nat) {k : Nat} (j : Fin n) (h : k = j.val) :
    lookup t fallback k = t[j] := by
  subst h
  exact lookup_of_lt t fallback j.isLt

theorem lookup_of_le {n : Nat} (t : Vector Nat n) (fallback : Nat) {k : Nat} (h : n ≤ k) :
    lookup t fallback k = fallback := lookup_of_not_lt t fallback (Nat.not_lt.mpr h)

theorem tCode_of_fan (c : Cfg) {r : StateReg} (h : r.mode = modeFan) : tCode c r = c.noTempCode := if_pos h

theorem tCode_of_not_fan (c : Cfg) {r : StateReg} (h : r.mode ≠ modeFan) :
    tCode c r =
      if 17 ≤ r.temp.toNat then lookup c.tempCode c.tempFallback (r.temp.toNat - 17) else c.tempFallback := if_neg h

theorem onCode_zero (c : Cfg) : onCode c 0 = c.noTon := rfl

theorem onCode_of_ne_zero (c : Cfg) {t : BitVec 6} (h : t.toNat ≠ 0) :
    onCode c t = lookup c.tonCode c.tonFallback t.toNat := by
  refine if_neg fun ht => h ?_
  rw [ht]
  rfl

/-- Settles O12: FAN mode first; else the table's index `TEMP - 17` runs over 0..13 for 17..30, and 31 is past it. -/
theorem temperatureCodeRule : Obligations.TemperatureCodeRule := by
  unfold Obligations.TemperatureCodeRule
  intro c r
  refine ⟨fun hfan => tCode_of_fan c hfan, fun k hmode htemp => ?_, fun hmode htemp => ?_⟩
  · rw [tCode_of_not_fan c hmode, if_pos (by omega)]
    exact lookup_of_eq c.tempCode c.tempFallback k (by omega)
  · rw [tCode_of_not_fan c hmode]
    split
    · exact lookup_of_le c.tempCode c.tempFallback (by omega)
    · rfl

/-- Settles O13: each code is its table's entry or, past the table's end, the fallback. -/
theorem modeFanAndTimerCodeRules : Obligations.ModeFanAndTimerCodeRules := by
  unfold Obligations.ModeFanAndTimerCodeRules
  intro c
  refine ⟨fun m k => lookup_of_eq c.modeCode c.modeFallback k, fun m => lookup_of_le c.modeCode c.modeFallback,
    fun f k => lookup_of_eq c.fanCode c.fanFallback k, fun f => lookup_of_le c.fanCode c.fanFallback,
    fun t k => lookup_of_eq c.toffCode c.toffFallback k, fun t => lookup_of_le c.toffCode c.toffFallback,
    onCode_zero c, fun t k hk ht => ?_, fun t ht => ?_⟩
  · rw [onCode_of_ne_zero c (by omega)]
    exact lookup_of_eq c.tonCode c.tonFallback k ht
  · rw [onCode_of_ne_zero c (by omega)]
    exact lookup_of_le c.tonCode c.tonFallback ht

/-! ### The normal word -/

/-- A code shifted to `lo`: its bits stand from `lo` on (R11). -/
theorem zext24_shiftLeft_getLsbD (v lo k : Nat) :
    (zext24 v <<< lo).getLsbD k = (decide (k < 24) && (decide (lo ≤ k) && v.testBit (k - lo))) := by
  rw [BitVec.getLsbD_shiftLeft, zext24_getLsbD, ← decide_not]
  by_cases hk : k < 24
  · have hsub : k - lo < 24 := by omega
    simp [hk, hsub]
  · simp [hk]

theorem zext24_shiftLeft_inside {v lo k : Nat} (h : lo + k < 24) :
    (zext24 v <<< lo).getLsbD (lo + k) = v.testBit k := by
  rw [zext24_shiftLeft_getLsbD, decide_eq_true h, decide_eq_true (Nat.le_add_right lo k), Nat.add_sub_cancel_left,
    Bool.true_and, Bool.true_and]

/-- A code that fits its width has no bit outside its span. -/
theorem zext24_shiftLeft_outside {v lo n k : Nat} (hv : v < 2 ^ n) (h : ¬ (lo ≤ k ∧ k < lo + n)) :
    (zext24 v <<< lo).getLsbD k = false := by
  rw [zext24_shiftLeft_getLsbD]
  by_cases hlo : lo ≤ k
  · have hbit : v.testBit (k - lo) = false :=
      Nat.testBit_lt_two_pow (hv.trans_le (Nat.pow_le_pow_right (by decide) (by omega)))
    simp [hbit]
  · simp [hlo]

/-- The normal word is the union of its five parts (R84). -/
theorem normalWord_getLsbD (c : Cfg) (r : StateReg) (k : Nat) :
    (normalWord c r).getLsbD k =
      ((zext24 c.hdr <<< 16).getLsbD k || (zext24 (tCode c r) <<< c.tShift).getLsbD k
        || (zext24 (mCode c r.mode) <<< c.mShift).getLsbD k || (zext24 (fCode c r.fan) <<< c.fShift).getLsbD k
        || (zext24 (oCode c r.toff) <<< c.offShift).getLsbD k) := by
  simp only [normalWord, BitVec.getLsbD_or]

/-- `CHK_DISJOINT`: of two field spans one ends before the other begins (R66). -/
theorem WfCfg.spans_ordered (w : WfCfg) :
    (w.cfg.tShift + 4 ≤ w.cfg.mShift ∨ w.cfg.mShift + 2 ≤ w.cfg.tShift) ∧
    (w.cfg.tShift + 4 ≤ w.cfg.fShift ∨ w.cfg.fShift + 3 ≤ w.cfg.tShift) ∧
    (w.cfg.tShift + 4 ≤ w.cfg.offShift ∨ w.cfg.offShift + w.cfg.tw ≤ w.cfg.tShift) ∧
    (w.cfg.mShift + 2 ≤ w.cfg.fShift ∨ w.cfg.fShift + 3 ≤ w.cfg.mShift) ∧
    (w.cfg.mShift + 2 ≤ w.cfg.offShift ∨ w.cfg.offShift + w.cfg.tw ≤ w.cfg.mShift) ∧
    (w.cfg.fShift + 3 ≤ w.cfg.offShift ∨ w.cfg.offShift + w.cfg.tw ≤ w.cfg.fShift) := by
  have h : chkDisjoint w.cfg = true := w.passes .disjoint
  simpa only [chkDisjoint, spansDisjoint, Bool.and_eq_true, Bool.or_eq_true, decide_eq_true_eq, and_assoc] using h

/-- Settles O14: at a bit of one part's span every other part is 0, because each code fits its width (`CHK_WIDTHS`) and
the spans lie below bit 16 (`CHK_BELOW_HDR`) and apart from each other (`CHK_DISJOINT`). -/
theorem normalWordSpansHoldTheirCodes : Obligations.NormalWordSpansHoldTheirCodes := by
  unfold Obligations.NormalWordSpansHoldTheirCodes
  intro w r
  obtain ⟨hhdr, -⟩ := (chkWidths_iff w.cfg).mp (w.passes .widths)
  obtain ⟨ht, hm, hf, ho, -⟩ := codesFitTheirFields w r
  have hbelow := (chkBelowHdr_iff w.cfg).mp (w.passes .belowHdr)
  have hspans := w.spans_ordered
  have hdrOut (k : Nat) := zext24_shiftLeft_outside (lo := 16) (k := k) hhdr
  have tOut (k : Nat) := zext24_shiftLeft_outside (lo := w.cfg.tShift) (k := k) ht
  have mOut (k : Nat) := zext24_shiftLeft_outside (lo := w.cfg.mShift) (k := k) hm
  have fOut (k : Nat) := zext24_shiftLeft_outside (lo := w.cfg.fShift) (k := k) hf
  have oOut (k : Nat) := zext24_shiftLeft_outside (lo := w.cfg.offShift) (k := k) ho
  refine ⟨fun k hk => ?_, fun k hk => ?_, fun k hk => ?_, fun k hk => ?_, fun k hk => ?_, fun k hk _ _ _ _ => ?_⟩
  all_goals
    simp (disch := omega) only [normalWord_getLsbD, hdrOut, tOut, mOut, fOut, oOut, zext24_shiftLeft_inside,
      Bool.or_false, Bool.false_or]

/-! ### The inverted word -/

/-- `TACT` (R30). -/
theorem timerActive_iff (ton toff : BitVec 6) : timerActive ton toff = true ↔ ton ≠ 0 ∨ toff ≠ 0 := by
  simp [timerActive]

theorem invertedWord_of_inactive (c : Cfg) (n : Word24) : invertedWord c n 0 0 = ~~~n := rfl

theorem invertedWord_of_active (c : Cfg) (n : Word24) {ton toff : BitVec 6} (h : ton ≠ 0 ∨ toff ≠ 0) :
    invertedWord c n ton toff = timerWord c n ton := if_pos ((timerActive_iff ton toff).mpr h)

/-- The 24-bit complement as an exclusive or with all ones (R91). -/
theorem xor_ones24 (n : Word24) : n ^^^ 0xFFFFFF = ~~~n := BitVec.xor_allOnes

/-- Step 1 of R91, bit by bit. -/
theorem complementOutside_getLsbD (c : Cfg) (n : Word24) {k : Nat} (hk : k < 24) :
    (complementOutside c n).getLsbD k = (!n.getLsbD k && !c.tmask.testBit k) := by
  simp only [complementOutside, BitVec.getLsbD_and, BitVec.getLsbD_not, zext24_getLsbD, hk, decide_true, Bool.true_and]

/-- Step 2 of R91, bit by bit. -/
theorem copyFlag_getLsbD (c : Cfg) (n i : Word24) {k : Nat} (hk : k < 24) :
    (copyFlag c n i).getLsbD k = if k = c.tflagPos then n.getLsbD k else i.getLsbD k := by
  have hflag : (1#24 <<< c.tflagPos).getLsbD k = decide (k = c.tflagPos) := by
    rw [← BitVec.twoPow_eq, BitVec.getLsbD_twoPow]
    by_cases h : k = c.tflagPos
    · simp [← h, hk]
    · simp [h, Ne.symm h]
  simp only [copyFlag, BitVec.getLsbD_or, BitVec.getLsbD_and, BitVec.getLsbD_not, hflag, hk]
  by_cases h : k = c.tflagPos <;> simp [h]

/-- The four steps of R91, bit by bit. -/
theorem timerWord_getLsbD (c : Cfg) (n : Word24) (ton : BitVec 6) {k : Nat} (hk : k < 24) :
    (timerWord c n ton).getLsbD k =
      ((if k = c.tflagPos then n.getLsbD k else !n.getLsbD k && !c.tmask.testBit k) || c.tonActive.testBit k
        || (decide (c.onShift ≤ k) && (onCode c ton).testBit (k - c.onShift))) := by
  simp only [timerWord, BitVec.getLsbD_or, copyFlag_getLsbD c n _ hk, complementOutside_getLsbD c n hk,
    zext24_getLsbD, zext24_shiftLeft_getLsbD, hk, decide_true, Bool.true_and]

/-- Settles O16, by whether a timer is active. -/
theorem invertedWordBits : Obligations.InvertedWordBits := by
  unfold Obligations.InvertedWordBits
  intro w n ton toff
  refine ⟨?_, fun hactive k hk => ?_⟩
  · rintro ⟨rfl, rfl⟩
    rw [invertedWord_of_inactive, xor_ones24]
  · rw [invertedWord_of_active w.cfg n hactive]
    exact timerWord_getLsbD w.cfg n ton hk

/-! ### The symbols of two words -/

/-- The 48 cells hold a normal and an inverted word in the order of R92. -/
def HoldsWords (sym : Vector (Reg Bool) 48) (n i : Word24) : Prop :=
  ∀ (g : Fin 3) (b : Fin 8),
    sym[16 * g.val + b.val]? = some (.val (n.getLsbD (23 - 8 * g.val - b.val))) ∧
    sym[16 * g.val + 8 + b.val]? = some (.val (i.getLsbD (23 - 8 * g.val - b.val)))

theorem holdsWords_expand (n i : Word24) : HoldsWords ((expand n i).map .val) n i := by
  intro g b
  have hn : 16 * g.val + b.val < 48 := by omega
  have hi : 16 * g.val + 8 + b.val < 48 := by omega
  rw [Vector.getElem?_eq_getElem hn, Vector.getElem?_eq_getElem hi, Vector.getElem_map, Vector.getElem_map,
    expand_normal n i g b g.isLt b.isLt, expand_inverted n i g b g.isLt b.isLt]
  exact ⟨rfl, rfl⟩

/-- Group `g` of a word, most significant bit first (R42). -/
def octetBits (v : Word24) (g : Fin 3) : List Bool := List.ofFn fun b : Fin 8 => v.getLsbD (23 - 8 * g.val - b.val)

/-- The groups of the two words, interleaved (R92). -/
theorem toList_expand (n i : Word24) :
    (expand n i).toList = (List.ofFn fun g : Fin 3 => octetBits n g ++ octetBits i g).flatten := by
  have hcells : (expand n i).toList = List.ofFn fun k : Fin (16 * 3) => (expand n i)[k.val] := by
    simp only [expand, Vector.toList_ofFn, Vector.getElem_ofFn]
  rw [hcells, List.ofFn_mul']
  refine congrArg (fun f => (List.ofFn f).flatten) (funext fun g => ?_)
  rw [List.ofFn_add (m := 8) (n := 8)]
  refine congrArg₂ (· ++ ·) (congrArg List.ofFn (funext fun b => ?_)) (congrArg List.ofFn (funext fun b => ?_))
  · exact expand_normal n i g b g.isLt b.isLt
  · simp only [Fin.val_natAdd, ← Nat.add_assoc]
    exact expand_inverted n i g b g.isLt b.isLt

theorem octetBits_not (v : Word24) (g : Fin 3) : octetBits (~~~v) g = (octetBits v g).map not := by
  rw [octetBits, octetBits, List.map_ofFn]
  congr 1
  funext b
  have hb : 23 - 8 * g.val - b.val < 24 := by omega
  simp [-BitVec.getLsbD_eq_getElem, BitVec.getLsbD_not, hb]

/-- A group and its complement hold eight ones together (R96). -/
theorem count_octetBits_append_not (v : Word24) (g : Fin 3) :
    (octetBits v g ++ octetBits (~~~v) g).count true = 8 := by
  calc (octetBits v g ++ octetBits (~~~v) g).count true
      = (octetBits v g).count true + ((octetBits v g).map not).count (!false) := by
        rw [List.count_append, octetBits_not, Bool.not_false]
    _ = (octetBits v g).count true + (octetBits v g).count false := by
        rw [List.count_map_of_injective _ not Bool.not_injective]
    _ = 8 := by rw [List.count_true_add_count_false, octetBits, List.length_ofFn]

/-- The symbols of a word and its complement: 24 of the 48 are 1 (R96). -/
theorem count_expand_not (n : Word24) : ((expand n (~~~n)).map Reg.val).toList.count (.val true) = 24 := by
  have hgroups : (List.count true ∘ fun g : Fin 3 => octetBits n g ++ octetBits (~~~n) g) = fun _ => 8 :=
    funext (count_octetBits_append_not n)
  rw [Vector.toList_map, List.count_map_of_injective _ Reg.val fun _ _ => Reg.val.inj, toList_expand,
    List.count_flatten, List.map_ofFn, hgroups]
  rfl

/-! ### The commands -/

theorem exec_setstate (temp : BitVec 5) (mode fan : BitVec 3) (ton toff : BitVec 6) (s : State) :
    exec (.setstate temp mode fan ton toff) s = .next (writeState ⟨temp, mode, fan, ton, toff⟩ s) := rfl

theorem exec_encode (s : State) :
    exec .encode s = .next (writeWords (normalWord s.cfg.cfg s.stateReg)
      (invertedWord s.cfg.cfg (normalWord s.cfg.cfg s.stateReg) s.stateReg.ton s.stateReg.toff) s) := rfl

/-- `SPECIAL[SC]` where `SC` names a special command (R67, R70). -/
theorem specialConst_of_eq (c : Cfg) {sc : BitVec 3} (k : Fin 6) (h : sc.toNat = k.val) :
    specialConst c sc = some c.special[k] := by
  rw [specialConst, h]
  exact Vector.getElem?_eq_getElem k.isLt

theorem exec_encodeSpecial_of_eq {sc : BitVec 3} (k : Fin 6) (s : State) (h : sc.toNat = k.val) :
    exec (.encodeSpecial sc) s =
      .next (writeWords (zext24 s.cfg.cfg.special[k]) (~~~zext24 s.cfg.cfg.special[k]) s) := by
  simp only [exec, execEncodeSpecial, specialConst_of_eq s.cfg.cfg k h]

/-- `ENCODE_SPECIAL` completes only where `SC` selects a constant, and then writes it and its complement (R82, R93). -/
theorem exec_encodeSpecial_next {sc : BitVec 3} {s t : State} (h : exec (.encodeSpecial sc) s = .next t) :
    ∃ v, specialConst s.cfg.cfg sc = some v ∧ t = writeWords (zext24 v) (~~~zext24 v) s := by
  simp only [exec, execEncodeSpecial] at h
  split at h
  · rename_i v hv
    cases h
    exact ⟨v, hv, rfl⟩
  · cases h

/-- Settles O10: `SETSTATE` is one register write (R47, R80). -/
theorem setstateWritesTheFiveFieldsAlone : Obligations.SetstateWritesTheFiveFieldsAlone := by
  unfold Obligations.SetstateWritesTheFiveFieldsAlone
  exact exec_setstate

/-- Settles O17: `ENCODE` is one write of the words, and their symbols stand where R92 says. -/
theorem encodeWritesWordsAndSymbols : Obligations.EncodeWritesWordsAndSymbols := by
  unfold Obligations.EncodeWritesWordsAndSymbols
  intro s
  exact ⟨_, exec_encode s, rfl, rfl, holdsWords_expand _ _, rfl⟩

/-- Settles O21: the inverted word is the complement. -/
theorem specialWritesConstantAndComplement : Obligations.SpecialWritesConstantAndComplement := by
  unfold Obligations.SpecialWritesConstantAndComplement
  intro sc k s hk
  refine ⟨_, exec_encodeSpecial_of_eq k s hk, ?_⟩
  simp only [xor_ones24]
  exact ⟨rfl, rfl, holdsWords_expand _ _, rfl⟩

/-- Settles O19: the words written are functions of `STATE` and `CFG`, or of `SC` and `CFG`. -/
theorem encoderWritesDependOnlyOnItsInputs : Obligations.EncoderWritesDependOnlyOnItsInputs := by
  unfold Obligations.EncoderWritesDependOnlyOnItsInputs
  intro s₁ s₂ t₁ t₂ hcfg
  refine ⟨fun hstate h₁ h₂ => ?_, fun sc h₁ h₂ => ?_⟩
  · rw [exec_encode] at h₁ h₂
    cases h₁
    cases h₂
    simp only [writeWords_nword, writeWords_iword, writeWords_sym, hcfg, hstate, and_self]
  · obtain ⟨v₁, hv₁, rfl⟩ := exec_encodeSpecial_next h₁
    obtain ⟨v₂, hv₂, rfl⟩ := exec_encodeSpecial_next h₂
    rw [hcfg, hv₂] at hv₁
    cases hv₁
    exact ⟨rfl, rfl, rfl⟩

/-! ### The complement law -/

/-- With no timer active, and for every special command, the encoder writes a word and its complement (R91, R93). -/
theorem exec_writes_complement {i : Instr} {s t : State} (h : exec i s = .next t)
    (hi : (i = .encode ∧ s.stateReg.ton = 0 ∧ s.stateReg.toff = 0) ∨ ∃ sc, i = .encodeSpecial sc) :
    ∃ n, t = writeWords n (~~~n) s := by
  rcases hi with ⟨rfl, hton, htoff⟩ | ⟨sc, rfl⟩
  · rw [exec_encode, hton, htoff, invertedWord_of_inactive] at h
    cases h
    exact ⟨_, rfl⟩
  · obtain ⟨v, -, rfl⟩ := exec_encodeSpecial_next h
    exact ⟨_, rfl⟩

theorem onCode_lt (w : WfCfg) (ton : BitVec 6) : onCode w.cfg ton < 2 ^ w.cfg.tw := by
  obtain ⟨-, -, -, -, hton⟩ := codesFitTheirFields w ⟨0, 0, 0, ton, 0⟩
  exact hton

/-- The flag bit lies inside the mask (`CHK_FLAG_IN_MASK`). -/
theorem ne_tflagPos_of_outside_tmask (w : WfCfg) {k : Nat} (h : w.cfg.tmask.testBit k = false) :
    k ≠ w.cfg.tflagPos := by
  rintro rfl
  obtain ⟨-, hflag⟩ := (chkFlagInMask_iff w.cfg).mp (w.passes .flagInMask)
  exact absurd (hflag.symm.trans h) (by decide)

/-- Settles O20: a word and its complement fill the symbols; with a timer active only step 1 of R91 reaches a bit
that is outside the mask (so not the flag), outside `TON_ACTIVE` and outside the on-code span. -/
theorem complementLaw : Obligations.ComplementLaw := by
  unfold Obligations.ComplementLaw
  refine ⟨fun i s t h hi => ?_, fun w n ton toff k hk hactive hmask htonActive hspan => ?_⟩
  · obtain ⟨n, rfl⟩ := exec_writes_complement h hi
    refine ⟨fun g b => ⟨n.getLsbD (23 - 8 * g.val - b.val), ?_⟩, count_expand_not n⟩
    have hb : 23 - 8 * g.val - b.val < 24 := by omega
    have hcells := holdsWords_expand n (~~~n) g b
    rwa [BitVec.getLsbD_not, decide_eq_true hb, Bool.true_and] at hcells
  · have honCode := zext24_shiftLeft_outside (onCode_lt w ton) hspan
    rw [zext24_shiftLeft_getLsbD, decide_eq_true hk, Bool.true_and] at honCode
    rw [invertedWord_of_active w.cfg n hactive, timerWord_getLsbD w.cfg n ton hk,
      if_neg (ne_tflagPos_of_outside_tmask w hmask), hmask, htonActive, honCode]
    simp only [Bool.not_false, Bool.and_true, Bool.or_false]

/-! ### The command words -/

/-- A ready machine refuses a word of a format for its must-be-0 bits, else runs the command it reads as (R53, R68). -/
theorem step_of_format {s : State} {w : CmdWord} {op : BitVec 4} {lo n : Nat} {i : Instr} (hready : Ready w s)
    (hop : opcode w = op) (hf : Format w op lo n i) :
    step s = if field w lo n = 0 then exec i (takePort s) else .refused .reservedBits := by
  rw [step_of_ready hready, accept, decode_of_format hop hf, requireZero]
  split_ifs <;> rfl

/-- Settles O11, by the format of opcode 1 (R57). -/
theorem setstateWordOutcome : Obligations.SetstateWordOutcome := by
  unfold Obligations.SetstateWordOutcome
  intro s w hready hop
  exact step_of_format hready hop .setstate

/-- Settles O18, by the format of opcode 2 (R58). -/
theorem encodeWordOutcome : Obligations.EncodeWordOutcome := by
  unfold Obligations.EncodeWordOutcome
  intro s w hready hop
  exact step_of_format hready hop .encode

/-- Settles O22: the must-be-0 bits first, then `SC` (R174). -/
theorem specialWordOutcome : Obligations.SpecialWordOutcome := by
  unfold Obligations.SpecialWordOutcome
  intro s w hready hop
  have hstep := step_of_format hready hop .encodeSpecial
  refine ⟨fun hz => hstep.trans (if_neg hz), fun hz hsc => ?_, fun k hz hk => ?_⟩
  · have hill : ¬ legalSpecial (field w 0 3) := Nat.not_le.mpr hsc
    exact (hstep.trans (if_pos hz)).trans ((execEncodeSpecial_refused_iff _ _ _).mpr ⟨hill, rfl⟩)
  · exact (hstep.trans (if_pos hz)).trans (exec_encodeSpecial_of_eq k (takePort s) hk)

/-- Settles O24: the cells of the half that bit 24 names take the bits of the word's low 24. -/
theorem loadsymWordOutcome : Obligations.LoadsymWordOutcome := by
  unfold Obligations.LoadsymWordOutcome
  intro s w hready hop
  have hstep := step_of_format hready hop .loadsym
  refine ⟨fun hz => hstep.trans (if_neg hz), fun hz => ⟨_, hstep.trans (if_pos hz), fun k => ?_, rfl⟩⟩
  have hbit : 23 - k.val % 24 < 24 := by omega
  have hcell := halfWritten_getElem (field w 24 1) (field w 0 24) s.sym k
  rwa [field_getLsbD, decide_eq_true hbit, Bool.true_and, Nat.zero_add] at hcell

end Sys2Proof.Machine

/-! PROOFS. The transmitter: what `TRANSMIT` and `TRANSMIT_NH` load or why they stop, how many segments that is and how
long they last, what they are on the pin, and the faults of a step (spec/41_transmitter.md R110 to R128, R172). -/

namespace Sys2Proof.Machine

/-! ### The segments of a frame -/

/-- A frame as its four parts in order: header, payload, closing mark, trailer space (R112, R115). -/
theorem frame_eq_append (c : Cfg) (bs : List Bool) (header : Bool) :
    frame c bs header =
      (if header then headerSegs c else []) ++ bitSegs c bs ++ stopSegs c ++ [.space c.trailerSpaceNs] := by
  rw [frame, trailerSegs, ← List.append_assoc]

theorem transmitQueue_again (c : Cfg) (bs : List Bool) :
    transmitQueue c bs true = frame c bs true ++ [.space c.gapNs] ++ frame c bs true := rfl

/-- Settles O26: the symbols are written, so `TRANSMIT` loads its queue, whose frames are written out. -/
theorem transmitLoadsItsSegments : Obligations.TransmitLoadsItsSegments := by
  unfold Obligations.TransmitLoadsItsSegments
  intro r len bs s hlen hbs c f
  have hframe : frame c bs true = f := frame_eq_append c bs true
  have hqueue : transmitQueue c bs (r == 1) = if r = 1 then f ++ [.space c.gapNs] ++ f else f := by
    simp only [transmitQueue, hframe, beq_iff_eq]
  rw [exec_transmit, startTx_of_written hlen hbs, hqueue]
  rfl

/-- Settles O27: as for `TRANSMIT`, without the header. -/
theorem transmitNhLoadsPayloadAndTrailer : Obligations.TransmitNhLoadsPayloadAndTrailer := by
  unfold Obligations.TransmitNhLoadsPayloadAndTrailer
  intro len bs s hlen hbs c
  rw [exec_transmitNh, startTx_of_written hlen hbs, frame_eq_append]
  rfl

/-- Settles O30: no symbol is read, so the first 0 of them are written whatever the buffer holds. -/
theorem emptyTransmissionStillSendsItsFraming : Obligations.EmptyTransmissionStillSendsItsFraming := by
  unfold Obligations.EmptyTransmissionStillSendsItsFraming
  intro s
  have hlen : (0 : BitVec 6).toNat ≤ 48 := by decide
  have hbs : s.sym.toList.take (0 : BitVec 6).toNat = ([] : List Bool).map .val := List.take_zero
  rw [exec_transmit, exec_transmitNh, startTx_of_written hlen hbs, startTx_of_written hlen hbs]
  exact ⟨rfl, rfl⟩

/-! ### Unwritten symbols -/

/-- Cells of which none is `UNSET` hold values. -/
theorem exists_map_val_of_ne_unset {cells : List (Reg Bool)} (h : ∀ cell ∈ cells, cell ≠ .unset) :
    ∃ bs : List Bool, cells = bs.map .val := by
  have hmem : cells ∈ Set.range (List.map Reg.val) := by
    rw [Set.range_list_map]
    intro cell hcell
    cases cell with
    | unset => exact absurd rfl (h .unset hcell)
    | val b => exact ⟨b, rfl⟩
  obtain ⟨bs, hbs⟩ := hmem
  exact ⟨bs, hbs.symm⟩

/-- The first `n` cells as the written ones below the lowest `UNSET` one, that cell, and what follows it. -/
theorem take_sym_of_lowest_unset {s : State} {n : Nat} {k : Fin 48} (hk : k.val < n) (hu : s.sym[k] = .unset)
    (hlow : ∀ j : Fin 48, j < k → s.sym[j] ≠ .unset) :
    ∃ (bs : List Bool) (rest : List (Reg Bool)),
      s.sym.toList.take n = bs.map .val ++ .unset :: rest ∧ bs.length = k.val := by
  have hbelow : ∃ bs : List Bool, s.sym.toList.take k.val = bs.map .val := by
    refine exists_map_val_of_ne_unset fun cell hcell => ?_
    obtain ⟨j, hj, rfl⟩ := List.mem_take_iff_getElem.mp hcell
    have hjk : j < k.val := (lt_min_iff.mp hj).1
    simpa using hlow ⟨j, hjk.trans k.isLt⟩ hjk
  obtain ⟨bs, hbs⟩ := hbelow
  have hlength : bs.length = k.val := by
    have hcount := congrArg List.length hbs
    rw [List.length_take, Vector.length_toList, List.length_map] at hcount
    omega
  have hcell : s.sym.toList[k.val]'(by simp) = .unset := by simpa using hu
  refine ⟨bs, (s.sym.toList.drop (k.val + 1)).take (n - k.val - 1), ?_, hlength⟩
  calc s.sym.toList.take n
      = (s.sym.toList.take k.val ++ s.sym.toList.drop k.val).take n := by rw [List.take_append_drop]
    _ = bs.map .val ++ (.unset :: s.sym.toList.drop (k.val + 1)).take (n - k.val) := by
        rw [hbs, List.drop_eq_getElem_cons (by simp), hcell, List.take_append, List.length_map, hlength,
          List.take_of_length_le (by simp; omega)]
    _ = bs.map .val ++ .unset :: (s.sym.toList.drop (k.val + 1)).take (n - k.val - 1) := by
        rw [List.take_cons (by omega)]

/-- A transmit command with a legal length faults on the first `UNSET` cell it reads (R110, R172). -/
theorem startTx_of_unset {len : BitVec 6} {queue : List Bool → List Segment} {s : State} {bs : List Bool}
    {rest : List (Reg Bool)} (hlen : len.toNat ≤ 48)
    (hcells : s.sym.toList.take len.toNat = bs.map .val ++ .unset :: rest) :
    startTx len queue s = .fault (.unsetRead (.sym bs.length)) := by
  have hread : readSymbols len.toNat s = .error (.unsetRead (.sym bs.length)) :=
    (readCells_error_iff 0 _ _).mpr ⟨bs, rest, hcells, by rw [Nat.zero_add]⟩
  simp [startTx, hlen, hread]

/-- Settles O28: both commands read the same cells in the same order. -/
theorem transmitFaultsOnTheLowestUnsetSymbol : Obligations.TransmitFaultsOnTheLowestUnsetSymbol := by
  unfold Obligations.TransmitFaultsOnTheLowestUnsetSymbol
  intro r len k s hlen hk hu hlow
  obtain ⟨bs, rest, hcells, hlength⟩ := take_sym_of_lowest_unset hk hu hlow
  rw [exec_transmit, exec_transmitNh, startTx_of_unset hlen hcells, startTx_of_unset hlen hcells, hlength]
  exact ⟨rfl, rfl⟩

/-! ### The command words -/

/-- What a ready machine does with a word whose format is that of a transmit command, in the order of R174: the
must-be-0 bits, the length, the first `UNSET` symbol, the load. -/
theorem step_of_transmit_format {s : State} {w : CmdWord} {op : BitVec 4} {lo n : Nat} {i : Instr} {len : BitVec 6}
    {queue : List Bool → List Segment} (hready : Ready w s) (hop : opcode w = op) (hf : Format w op lo n i)
    (hexec : exec i (takePort s) = startTx len queue (takePort s)) :
    (field w lo n ≠ 0 → step s = .refused .reservedBits) ∧
    (field w lo n = 0 → 48 < len.toNat → step s = .refused .lenRange) ∧
    (∀ (bs : List Bool) (rest : List (Reg Bool)), field w lo n = 0 → len.toNat ≤ 48 →
      s.sym.toList.take len.toNat = bs.map .val ++ .unset :: rest → step s = .fault (.unsetRead (.sym bs.length))) ∧
    (∀ bs : List Bool, field w lo n = 0 → len.toNat ≤ 48 → s.sym.toList.take len.toNat = bs.map .val →
      step s = .next (loadTx (queue bs) (takePort s))) := by
  have hstep := step_of_format hready hop hf
  have hrun (hz : field w lo n = 0) : step s = startTx len queue (takePort s) := (hstep.trans (if_pos hz)).trans hexec
  refine ⟨fun hz => hstep.trans (if_neg hz), fun hz hlen => ?_, fun bs rest hz hlen hcells => ?_,
    fun bs hz hlen hcells => ?_⟩
  · exact (hrun hz).trans ((startTx_refused_iff len queue _ _).mpr ⟨Nat.not_le.mpr hlen, rfl⟩)
  · exact (hrun hz).trans (startTx_of_unset (s := takePort s) hlen hcells)
  · exact (hrun hz).trans (startTx_of_written (s := takePort s) hlen hcells)

/-- A field of one bit is 1 where the word has that bit. -/
theorem field_one_beq_one (w : CmdWord) (lo : Nat) : (field w lo 1 == 1) = w.getLsbD lo := by
  have hbit : (field w lo 1).getLsbD 0 = w.getLsbD lo := field_getLsbD w lo 1 0
  rw [← hbit]
  generalize field w lo 1 = b
  revert b
  decide

/-- Settles O29, by the formats of the opcodes 5 and 6 (R65); bit 6 of a `TRANSMIT` word is its operand `R`. -/
theorem transmitWordOutcomes : Obligations.TransmitWordOutcomes := by
  unfold Obligations.TransmitWordOutcomes
  intro s w hready len cells
  refine ⟨fun hop => ?_, fun hop => ?_⟩
  · have h := step_of_transmit_format hready hop .transmit (exec_transmit (field w 6 1) (field w 0 6) (takePort s))
    rw [field_one_beq_one] at h
    exact h
  · exact step_of_transmit_format hready hop .transmitNh (exec_transmitNh (field w 0 6) (takePort s))

/-! ### Counts and durations -/

theorem bitSegs_length (c : Cfg) (bs : List Bool) : (bitSegs c bs).length = 2 * bs.length := by
  have htwo (b : Bool) : (symbolSegs c b).length = 2 := rfl
  rw [bitSegs, List.length_flatMap, funext htwo, List.map_const', List.sum_replicate, smul_eq_mul, Nat.mul_comm]

theorem stopSegs_length (c : Cfg) : (stopSegs c).length = if 0 < c.stopMarkCyc then 1 else 0 := by
  unfold stopSegs
  split <;> rfl

theorem frame_length (c : Cfg) (bs : List Bool) (header : Bool) :
    (frame c bs header).length =
      2 * (if header then 1 else 0) + 2 * bs.length + (if 0 < c.stopMarkCyc then 1 else 0) + 1 := by
  have hheader : (if header then headerSegs c else []).length = 2 * if header then 1 else 0 := by cases header <;> rfl
  rw [frame_eq_append, List.length_append, List.length_append, List.length_append, hheader, bitSegs_length,
    stopSegs_length, List.length_singleton]

/-- Settles O31: the parts of a frame counted, and the repetition as frame, gap and frame. -/
theorem segmentCounts : Obligations.SegmentCounts := by
  unfold Obligations.SegmentCounts
  intro c bs header st
  have hframe (header : Bool) :
      (frame c bs header).length = 2 * (if header then 1 else 0) + 2 * bs.length + st + 1 := frame_length c bs header
  have honce : (transmitQueue c bs false).length = 2 + 2 * bs.length + st + 1 := hframe true
  have hagain : (transmitQueue c bs true).length = 2 * (2 + 2 * bs.length + st + 1) + 1 := by
    rw [transmitQueue_again, List.length_append, List.length_append, hframe, List.length_singleton, if_pos rfl]
    omega
  exact ⟨hframe header, hagain, fun hfull hstop => by omega⟩

theorem totalNs_append (c : Cfg) (p q : List Segment) : totalNs c (p ++ q) = totalNs c p + totalNs c q := by
  rw [totalNs, List.map_append, List.sum_append, totalNs, totalNs]

theorem totalNs_space (c : Cfg) (d : Nat) : totalNs c [.space d] = d := rfl

theorem totalNs_headerSegs (c : Cfg) : totalNs c (headerSegs c) = headerNs c := rfl

/-- The payload lasts its marks and the space of each symbol (R114, R128). -/
theorem totalNs_bitSegs (c : Cfg) (bs : List Bool) :
    totalNs c (bitSegs c bs) =
      bs.length * c.bitMarkCyc * periodNs c + bs.count true * c.oneSpaceNs + bs.count false * c.zeroSpaceNs := by
  induction bs with
  | nil => simp [bitSegs, totalNs]
  | cons b bs ih =>
    have hsymbol : totalNs c (symbolSegs c b) = c.bitMarkCyc * periodNs c + symbolSpaceNs c b := rfl
    have hcons : bitSegs c (b :: bs) = symbolSegs c b ++ bitSegs c bs := List.flatMap_cons
    rw [hcons, totalNs_append, hsymbol, ih, List.length_cons]
    cases b with
    | true =>
      rw [List.count_cons_self, List.count_cons_of_ne (by decide), symbolSpaceNs, if_pos rfl]
      ring
    | false =>
      rw [List.count_cons_self, List.count_cons_of_ne (by decide), symbolSpaceNs, if_neg (by decide)]
      ring

/-- Without a closing mark `STOP_MARK_CYC` is 0, and so is its duration (R115). -/
theorem totalNs_stopSegs (c : Cfg) : totalNs c (stopSegs c) = c.stopMarkCyc * periodNs c := by
  unfold stopSegs
  split
  · rfl
  · rename_i h
    rw [Nat.eq_zero_of_not_pos h, Nat.zero_mul]
    rfl

theorem totalNs_frame (c : Cfg) (bs : List Bool) (header : Bool) :
    totalNs c (frame c bs header) =
      (if header then 1 else 0) * headerNs c + bs.length * c.bitMarkCyc * periodNs c + bs.count true * c.oneSpaceNs
        + (bs.length - bs.count true) * c.zeroSpaceNs + c.stopMarkCyc * periodNs c + c.trailerSpaceNs := by
  have hheader : totalNs c (if header then headerSegs c else []) = (if header then 1 else 0) * headerNs c := by
    cases header with
    | true => rw [if_pos rfl, totalNs_headerSegs, if_pos rfl, Nat.one_mul]
    | false => rw [if_neg (by decide), if_neg (by decide), Nat.zero_mul]; rfl
  have hzeros : bs.length - bs.count true = bs.count false := by
    rw [← List.count_true_add_count_false bs, Nat.add_sub_cancel_left]
  rw [frame_eq_append, totalNs_append, totalNs_append, totalNs_append, hheader, totalNs_bitSegs, totalNs_stopSegs,
    totalNs_space, hzeros]
  omega

/-- Settles O32: the parts of a frame added up, and the repetition as frame, gap and frame. -/
theorem transmissionDuration : Obligations.TransmissionDuration := by
  unfold Obligations.TransmissionDuration
  intro c bs header p ones one
  have hframe (header : Bool) : totalNs c (frame c bs header) = one (if header then 1 else 0) :=
    totalNs_frame c bs header
  refine ⟨hframe header, ?_⟩
  rw [transmitQueue_again, totalNs_append, totalNs_append, hframe, totalNs_space, if_pos rfl]
  omega

/-! ### The pin -/

theorem carrierCycles_eq_flatten (c : Cfg) (n : Nat) :
    carrierCycles c n = (List.replicate n (carrierCycle c)).flatten := by
  induction n with
  | zero => rfl
  | succ n ih => rw [carrierCycles, ih, List.replicate_succ, List.flatten_cons]

/-- The last cycle of a mark split off. -/
theorem carrierCycles_succ_append (c : Cfg) (n : Nat) :
    carrierCycles c (n + 1) = carrierCycles c n ++ carrierCycle c := by
  rw [carrierCycles_eq_flatten, carrierCycles_eq_flatten, List.replicate_succ', List.flatten_append,
    List.flatten_singleton]

theorem pinWave_append (c : Cfg) (p q : List Segment) : pinWave c (p ++ q) = pinWave c p ++ pinWave c q :=
  List.flatMap_append

theorem pinWave_singleton (c : Cfg) (seg : Segment) : pinWave c [seg] = pinSegment c seg :=
  List.flatMap_singleton ..

theorem mergePins_append (p q : List PinInterval) : mergePins (p ++ q) = p.foldr joinInterval (mergePins q) :=
  List.foldr_append

theorem joinInterval_same_level (level : Bool) (a b : Nat) (qs : List PinInterval) :
    joinInterval ⟨level, a⟩ (⟨level, b⟩ :: qs) = ⟨level, a + b⟩ :: qs := if_pos rfl

theorem joinInterval_other_level {level level' : Bool} (h : level ≠ level') (a b : Nat) (qs : List PinInterval) :
    joinInterval ⟨level, a⟩ (⟨level', b⟩ :: qs) = ⟨level, a⟩ :: ⟨level', b⟩ :: qs := if_neg h

/-- The intervals begin with an active pulse, or there are none. -/
def StartsActive (ps : List PinInterval) : Prop := ∀ p ∈ ps.head?, p.high = true

theorem startsActive_carrierCycles (c : Cfg) (n : Nat) : StartsActive (carrierCycles c n) := by
  cases n with
  | zero => simp [StartsActive, carrierCycles]
  | succ n => simp [StartsActive, carrierCycles, carrierCycle]

/-- An idle interval before an active pulse stays its own. -/
theorem joinInterval_idle_of_startsActive {ps : List PinInterval} (h : StartsActive ps) (d : Nat) :
    joinInterval ⟨false, d⟩ ps = ⟨false, d⟩ :: ps := by
  cases ps with
  | nil => rfl
  | cons p ps =>
    obtain ⟨level, e⟩ := p
    have hlevel : level = true := h ⟨level, e⟩ rfl
    subst hlevel
    exact joinInterval_other_level (by decide) d e ps

theorem joinInterval_active_idle (h d : Nat) (ps : List PinInterval) :
    joinInterval ⟨true, h⟩ (⟨false, d⟩ :: ps) = ⟨true, h⟩ :: ⟨false, d⟩ :: ps :=
  joinInterval_other_level (by decide) h d ps

/-- Carrier cycles before an active pulse have no two adjacent intervals of one level, so merging keeps them. -/
theorem foldr_joinInterval_carrierCycles (c : Cfg) (n : Nat) {ps : List PinInterval} (h : StartsActive ps) :
    (carrierCycles c n).foldr joinInterval ps = carrierCycles c n ++ ps := by
  induction n with
  | zero => rfl
  | succ n ih =>
    have hrest : StartsActive (carrierCycles c n ++ ps) := by
      cases n with
      | zero => exact h
      | succ n => exact startsActive_carrierCycles c (n + 1)
    calc (carrierCycles c (n + 1)).foldr joinInterval ps
        = joinInterval ⟨true, c.carrierHighNs⟩
            (joinInterval ⟨false, c.carrierLowNs⟩ ((carrierCycles c n).foldr joinInterval ps)) := rfl
      _ = ⟨true, c.carrierHighNs⟩ :: ⟨false, c.carrierLowNs⟩ :: (carrierCycles c n ++ ps) := by
          rw [ih, joinInterval_idle_of_startsActive hrest, joinInterval_active_idle]
      _ = carrierCycles c (n + 1) ++ ps := rfl

theorem mergePins_carrierCycles (c : Cfg) (n : Nat) : mergePins (carrierCycles c n) = carrierCycles c n := by
  have hnil : StartsActive [] := by simp [StartsActive]
  exact (foldr_joinInterval_carrierCycles c n hnil).trans (List.append_nil _)

/-- Two intervals of one level before a merged list join to one before it, whatever the list begins with. -/
theorem joinInterval_joinInterval (level : Bool) (a b : Nat) (ps : List PinInterval) :
    joinInterval ⟨level, a⟩ (joinInterval ⟨level, b⟩ ps) = joinInterval ⟨level, a + b⟩ ps := by
  cases ps with
  | nil => exact joinInterval_same_level level a b []
  | cons p ps =>
    obtain ⟨level', d⟩ := p
    by_cases hlevel : level = level'
    · subst hlevel
      rw [joinInterval_same_level, joinInterval_same_level, joinInterval_same_level, Nat.add_assoc]
    · rw [joinInterval_other_level hlevel, joinInterval_other_level hlevel, joinInterval_same_level]

/-- After a mark, the idle pulse that ends it and the space are one idle interval (R121). -/
theorem mergePins_mark_space_mark (c : Cfg) (n m d : Nat) :
    mergePins (pinWave c [.mark (n + 1), .space d, .mark (m + 1)]) =
      carrierCycles c n ++ (⟨true, c.carrierHighNs⟩ :: ⟨false, c.carrierLowNs + d⟩ :: carrierCycles c (m + 1)) := by
  have hwave : pinWave c [.mark (n + 1), .space d, .mark (m + 1)] =
      carrierCycles c n ++ (⟨true, c.carrierHighNs⟩ :: ⟨false, c.carrierLowNs⟩ :: ⟨false, d⟩ ::
        carrierCycles c (m + 1)) := by
    simp [pinWave, pinSegment, carrierCycles_succ_append, carrierCycle]
  have hlow : mergePins (⟨true, c.carrierHighNs⟩ :: ⟨false, c.carrierLowNs⟩ :: ⟨false, d⟩ :: carrierCycles c (m + 1)) =
      ⟨true, c.carrierHighNs⟩ :: ⟨false, c.carrierLowNs + d⟩ :: carrierCycles c (m + 1) := by
    calc mergePins _
        = joinInterval ⟨true, c.carrierHighNs⟩ (joinInterval ⟨false, c.carrierLowNs⟩
            (joinInterval ⟨false, d⟩ (mergePins (carrierCycles c (m + 1))))) := rfl
      _ = _ := by
        rw [mergePins_carrierCycles, joinInterval_joinInterval,
          joinInterval_idle_of_startsActive (startsActive_carrierCycles c (m + 1)), joinInterval_active_idle]
  rw [hwave, mergePins_append, hlow]
  exact foldr_joinInterval_carrierCycles c n (by simp [StartsActive])

/-- Settles O33: the expansions by their equations, the merged line by `mergePins_mark_space_mark`. -/
theorem pinLevelExpansion : Obligations.PinLevelExpansion := by
  unfold Obligations.PinLevelExpansion
  intro c n m d a b
  refine ⟨?_, rfl, pinWave_append c a b, ?_⟩
  · exact (pinWave_singleton c (.mark n)).trans (carrierCycles_eq_flatten c n)
  · rw [mergePins_mark_space_mark, pinWave_singleton, pinWave_singleton, List.append_assoc]
    rfl

/-- Settles O34: what stands after the two spaces is merged first, what stands before them is joined to the same
list. -/
theorem adjacentSpacesAreOneInterval : Obligations.AdjacentSpacesAreOneInterval := by
  unfold Obligations.AdjacentSpacesAreOneInterval
  intro c before afterwards a b
  have hmiddle : mergePins (pinWave c ([.space a, .space b] ++ afterwards)) =
      mergePins (pinWave c ([.space (a + b)] ++ afterwards)) :=
    joinInterval_joinInterval false a b (mergePins (pinWave c afterwards))
  rw [sameWaveform, List.append_assoc, List.append_assoc, pinWave_append c before, pinWave_append c before,
    mergePins_append, mergePins_append, hmiddle]

/-! ### The emit step -/

/-- Settles O36, by the agent that moves: the block while the host waits, the block let move by `pass`. -/
theorem emitStepMovesTheHeadToTheWave : Obligations.EmitStepMovesTheHeadToTheWave := by
  unfold Obligations.EmitStepMovesTheHeadToTheWave
  intro s seg q hm hb hq
  refine ⟨fun hw => step_of_waits_cons hm hw hb hq, fun rest hin => ?_⟩
  calc step s = blockStep (setInputs rest s) := step_of_input hm hin
    _ = .next (transmitterStep (setInputs rest s)) := blockStep_of_busy hb
    _ = .next (emitSegment seg q (setInputs rest s)) := by rw [transmitterStep_of_cons (s := setInputs rest s) hq]

/-! ### The faults of a step -/

/-- Why a step of an unmarked machine can fault with a cell: the cell is `UNSET`, and it is read by the host or by the
transmit command that the block accepts (R172). -/
inductive FaultCause (s : State) : CellName → Prop
  | readNword (rest : List HostAct) (hin : s.inputs = .read .nword :: rest) (hu : s.nword = .unset) :
      FaultCause s .nword
  | readIword (rest : List HostAct) (hin : s.inputs = .read .iword :: rest) (hu : s.iword = .unset) :
      FaultCause s .iword
  | readSym (k : Fin 48) (rest : List HostAct) (hin : s.inputs = .read (.sym k) :: rest) (hu : s.sym[k] = .unset) :
      FaultCause s (.sym k.val)
  | transmit (k : Fin 48) (w : CmdWord) (r : BitVec 1) (len : BitVec 6) (ho : Offered w s) (hb : s.busy = false)
      (hi : decode w = .ok (.transmit r len)) (hk : k.val < len.toNat) (hu : s.sym[k] = .unset) :
      FaultCause s (.sym k.val)
  | transmitNh (k : Fin 48) (w : CmdWord) (len : BitVec 6) (ho : Offered w s) (hb : s.busy = false)
      (hi : decode w = .ok (.transmitNh len)) (hk : k.val < len.toNat) (hu : s.sym[k] = .unset) :
      FaultCause s (.sym k.val)

/-- A transmit command faults only with an `UNSET` symbol below its length. -/
theorem startTx_fault {len : BitVec 6} {queue : List Bool → List Segment} {s : State} {cell : CellName}
    (h : startTx len queue s = .fault (.unsetRead cell)) :
    ∃ k : Fin 48, k.val < len.toNat ∧ s.sym[k] = .unset ∧ cell = .sym k.val := by
  have hread : readSymbols len.toNat s = .error (.unsetRead cell) := by
    unfold startTx at h
    split at h
    · split at h
      · cases h
      · rename_i f hf
        cases h
        exact hf
    · cases h
  obtain ⟨bs, rest, hcells, hcell⟩ := (readCells_error_iff 0 _ _).mp hread
  rw [Nat.zero_add] at hcell
  cases hcell
  have hget : (s.sym.toList.take len.toNat)[bs.length]? = some .unset := by simp [hcells]
  obtain ⟨hk, hu⟩ := List.getElem?_eq_some_iff.mp hget
  rw [List.length_take, lt_min_iff, Vector.length_toList] at hk
  obtain ⟨hlen, hk⟩ := hk
  exact ⟨⟨bs.length, hk⟩, hlen, by simpa using hu, rfl⟩

/-- Of the commands only the two transmit commands can fault. -/
theorem faultCause_of_exec {s t : State} {w : CmdWord} {i : Instr} {cell : CellName} (ho : Offered w s)
    (hb : s.busy = false) (hi : decode w = .ok i) (hsym : t.sym = s.sym) (h : exec i t = .fault (.unsetRead cell)) :
    FaultCause s cell := by
  cases i with
  | setstate | encode | loadsym => cases h
  | encodeSpecial sc =>
    simp only [exec, execEncodeSpecial] at h
    split at h <;> cases h
  | transmit r len =>
    obtain ⟨k, hk, hu, rfl⟩ := startTx_fault h
    exact .transmit k w r len ho hb hi hk (hsym ▸ hu)
  | transmitNh len =>
    obtain ⟨k, hk, hu, rfl⟩ := startTx_fault h
    exact .transmitNh k w len ho hb hi hk (hsym ▸ hu)

theorem faultCause_of_accept {s t : State} {w : CmdWord} {cell : CellName} (ho : Offered w s) (hb : s.busy = false)
    (hsym : t.sym = s.sym) (h : accept w t = .fault (.unsetRead cell)) : FaultCause s cell := by
  unfold accept at h
  split at h
  · rename_i i hi
    exact faultCause_of_exec (t := takePort t) ho hb hi hsym h
  · cases h

theorem faultCause_of_blockStep {s : State} {cell : CellName} (ins : List HostAct)
    (h : blockStep (setInputs ins s) = .fault (.unsetRead cell)) : FaultCause s cell := by
  unfold blockStep at h
  split at h
  · cases h
  · rename_i hb
    split at h
    · cases h
    · split at h
      · rename_i w hp
        exact faultCause_of_accept (t := setInputs ins s) (.inl hp) (by simpa using hb) rfl h
      · cases h

/-- A register read faults only where the register is `UNSET`, and names its own cell (R35, R172). -/
theorem readReg_eq_error {α : Type} {name cell : CellName} {wrap : α → ReadValue} {r : Reg α}
    (h : readReg name wrap r = .error (.unsetRead cell)) : r = .unset ∧ name = cell := by
  cases r with
  | unset => cases h; exact ⟨rfl, rfl⟩
  | val a => cases h

/-- A read of the read view faults only with the cell that it selects (R35). -/
theorem faultCause_of_read {s : State} {sel : ReadSel} {rest : List HostAct} {cell : CellName}
    (hin : s.inputs = .read sel :: rest) (h : readView s sel = .error (.unsetRead cell)) : FaultCause s cell := by
  cases sel with
  | state | busy => cases h
  | nword => obtain ⟨hu, rfl⟩ := readReg_eq_error h; exact .readNword rest hin hu
  | iword => obtain ⟨hu, rfl⟩ := readReg_eq_error h; exact .readIword rest hin hu
  | sym k => obtain ⟨hu, rfl⟩ := readReg_eq_error h; exact .readSym k rest hin hu

/-- An act that waits for the block faults only where the block's own step does. -/
theorem whenFree_fault {t s : State} {f : Fault} (h : whenFree t s = .fault f) : blockStep s = .fault f := by
  unfold whenFree at h
  split at h
  · exact h
  · cases h

theorem faultCause_of_hostStep {s : State} {a : HostAct} {rest : List HostAct} {cell : CellName}
    (hin : s.inputs = a :: rest) (h : hostStep a rest s = .fault (.unsetRead cell)) : FaultCause s cell := by
  have hblock (hs : blockStep s = .fault (.unsetRead cell)) : FaultCause s cell := faultCause_of_blockStep s.inputs hs
  cases a with
  | pass => exact faultCause_of_blockStep rest h
  | await | ret | setIE | op => exact hblock (whenFree_fault h)
  | irq | reset => cases h
  | write w =>
    simp only [hostStep, hostWrite] at h
    split at h
    · exact hblock h
    · rename_i hheld
      obtain ⟨hp, -⟩ := hostHeld_eq_false (by simpa using hheld)
      split at h
      · cases h
      · rename_i hb
        exact faultCause_of_accept (t := setInputs rest s) (.inr ⟨hp, rest, hin⟩) (by simpa using hb) rfl h
  | read sel =>
    simp only [hostStep, hostRead] at h
    split at h
    · exact hblock h
    · split at h
      · cases h
      · rename_i f hf
        cases h
        exact faultCause_of_read hin hf

/-- Every fault of an unmarked machine has one of the causes of `FaultCause`. -/
theorem faultCause_of_step {s : State} {cell : CellName} (hm : s.mark = none)
    (h : step s = .fault (.unsetRead cell)) : FaultCause s cell := by
  cases hin : s.inputs with
  | nil =>
    have hw : hostWaits s = true := by simp [hostWaits, hin]
    exact faultCause_of_blockStep s.inputs ((step_of_hostWaits hm hw).symm.trans h)
  | cons a rest => exact faultCause_of_hostStep hin ((step_of_input hm hin).symm.trans h)

/-- Settles O8, by the causes a fault can have. -/
theorem faultsAreUnsetReads : Obligations.FaultsAreUnsetReads := by
  unfold Obligations.FaultsAreUnsetReads
  intro s cell hm h
  cases faultCause_of_step hm h with
  | readNword rest hin hu => exact ⟨hu, rest, hin⟩
  | readIword rest hin hu => exact ⟨hu, rest, hin⟩
  | readSym k rest hin hu => exact ⟨k.isLt, hu, .inl ⟨rest, hin⟩⟩
  | transmit k w r len ho hb hi hk hu => exact ⟨k.isLt, hu, .inr ⟨w, ho, hb, .inl ⟨r, len, hi, hk⟩⟩⟩
  | transmitNh k w len ho hb hi hk hu => exact ⟨k.isLt, hu, .inr ⟨w, ho, hb, .inr ⟨len, hi, hk⟩⟩⟩

end Sys2Proof.Machine

/-! PROOFS. The host's Controller: what its operations store and issue, and its invariant
(spec/49_host_contract.md R140 to R161). -/

namespace Sys2Proof.Machine

/-! ### Corrected values -/

theorem clampTemp_of_lt {t : Int} (h : t < 17) : clampTemp t = 17 := if_pos h

theorem clampTemp_of_gt {t : Int} (h : 30 < t) : clampTemp t = 30 := by
  have hlow : ¬ t < 17 := by omega
  rw [clampTemp, if_neg hlow, if_pos h]

theorem clampTemp_of_mem {t : Int} (hlow : 17 ≤ t) (hhigh : t ≤ 30) : (clampTemp t : Int) = t := by
  rw [clampTemp, if_neg (not_lt.mpr hlow), if_neg (not_lt.mpr hhigh)]
  omega

theorem clampTemp_bounds (t : Int) : 17 ≤ clampTemp t ∧ clampTemp t ≤ 30 := by
  unfold clampTemp
  split
  · decide
  · split
    · decide
    · omega

/-- An index in range is taken as it is (R63, R145). -/
theorem timerArg_val (p : HostCfg) (i : Fin 36) : timerArg p (i.val : Int) = i := by
  have hi : (i.val : Int).toNat < 36 ∧ (0 : Int) ≤ i.val := by omega
  rw [timerArg, dif_pos hi]
  rfl

theorem nextTimer_of_succ {i j : Fin 36} (h : i.val + 1 = j.val) : nextTimer i = j := by
  have hi : i ≠ 35 := by omega
  rw [nextTimer, if_neg hi]
  omega

/-- The collision rule leaves no common index but 0 (R144). -/
theorem resolveOff_eq_zero {on off : Fin 36} (h : on = resolveOff on off) : on = 0 := by
  unfold resolveOff at h
  split at h
  · split at h <;> omega
  · omega

/-- At 35 the collision rule moves the off-timer down (R144). -/
theorem resolveOff_self_max {i : Fin 36} (h : i.val = 35) : (resolveOff i i).val = 34 := by
  obtain rfl : i = 35 := by omega
  rfl

/-- Below 35 the collision rule moves the off-timer up (R144). -/
theorem resolveOff_self_below {i : Fin 36} (h0 : i ≠ 0) (h : i.val < 35) : (resolveOff i i).val = i.val + 1 := by
  have hi : i ≠ 35 := by omega
  rw [resolveOff, if_pos ⟨rfl, h0⟩, if_neg hi]
  omega

/-! ### What the operations store -/

theorem changeTimerOff_fst (r : Bool) (i : Fin 36) (h : HostState) :
    (changeTimerOff r i h).1 = { h with timerOff := resolveOff h.timerOn i } := rfl

/-- The on-timer's setter stores the index and resolves the collision, or it is the implicit power-off (R155). -/
theorem changeTimerOn_fst (p : HostCfg) (r : Bool) (i : Fin 36) (h : HostState) :
    (changeTimerOn p r i h).1 = { h with timerOn := i, timerOff := resolveOff i h.timerOff } ∨
      (i = 0 ∧ (changeTimerOn p r i h).1 = { h with powered := false, timerOn := 0, timerOff := 0 }) := by
  unfold changeTimerOn
  split
  · exact .inl rfl
  · split
    · rename_i htrig
      obtain ⟨hi, -, -⟩ : i = 0 ∧ h.timerOn ≠ 0 ∧ h.timerOff = 0 := by simpa [triggersImplicitOff] using htrig
      exact .inr ⟨hi, rfl⟩
    · exact .inl rfl

/-- The implicit power-off needs index 0. -/
theorem changeTimerOn_fst_of_ne_zero (p : HostCfg) (r : Bool) {i : Fin 36} (h : HostState) (hi : i ≠ 0) :
    (changeTimerOn p r i h).1 = { h with timerOn := i, timerOff := resolveOff i h.timerOff } :=
  (changeTimerOn_fst p r i h).resolve_right fun ⟨hzero, _⟩ => hi hzero

/-- The toggle is power off or power on, with that operation's `R` (R150, log entry 30). -/
theorem hostOperate_powerToggle (p : HostCfg) (h : HostState) :
    hostOperate p .powerToggle h =
      if h.powered then hostPowerOff p (p.hostRepeat .powerOff) h else hostPowerOn (p.hostRepeat .powerOn) h := rfl

/-! ### The Controller's invariant -/

theorem HostOk.congr {h h' : HostState} (hh : HostOk h) (htemp : h'.temperature = h.temperature)
    (hon : h'.timerOn = h.timerOn) (hoff : h'.timerOff = h.timerOff) : HostOk h' := by
  simpa only [HostOk, htemp, hon, hoff] using hh

theorem HostOk.clamped {h : HostState} (hh : HostOk h) (t : Int) :
    HostOk { h with temperature := clampTemp t } := by
  obtain ⟨-, -, htimers⟩ := hh
  obtain ⟨hlow, hhigh⟩ := clampTemp_bounds t
  exact ⟨hlow, hhigh, htimers⟩

/-- Storing timers by the collision rule keeps the invariant, whatever they were. -/
theorem HostOk.resolve {h h' : HostState} (hh : HostOk h) (htemp : h'.temperature = h.temperature) {off : Fin 36}
    (hoff : h'.timerOff = resolveOff h'.timerOn off) : HostOk h' := by
  obtain ⟨hlow, hhigh, -⟩ := hh
  exact ⟨htemp ▸ hlow, htemp ▸ hhigh, fun heq => resolveOff_eq_zero (heq.trans hoff)⟩

theorem hostOk_initial : HostOk HostState.initial := ⟨by decide, by decide, fun _ => rfl⟩

theorem hostOk_construct (p : HostCfg) (r : Bool) (temp m f ton toff : Int) (powered : Bool) (pin : Nat) :
    HostOk (construct p r temp m f ton toff powered pin).1 := by
  obtain ⟨hlow, hhigh⟩ := clampTemp_bounds temp
  exact ⟨hlow, hhigh, resolveOff_eq_zero⟩

theorem hostOk_cycleFan {h : HostState} (p : HostCfg) (r : Bool) (hh : HostOk h) : HostOk (cycleFan p r h).1 := by
  unfold cycleFan
  split
  · exact hh
  · exact hh.congr rfl rfl rfl

theorem hostOk_stepTemp {h : HostState} (p : HostCfg) (r : Bool) (d : Int) (hh : HostOk h) :
    HostOk (stepTemp p r d h).1 := by
  unfold stepTemp
  split
  · exact hh
  · exact hh.clamped _

theorem hostOk_changeTimerOn {h : HostState} (p : HostCfg) (r : Bool) (i : Fin 36) (hh : HostOk h) :
    HostOk (changeTimerOn p r i h).1 := by
  rcases changeTimerOn_fst p r i h with heq | ⟨-, heq⟩
  · rw [heq]
    exact hh.resolve rfl rfl
  · rw [heq]
    exact hh.resolve (off := 0) rfl rfl

theorem hostOk_hostPowerOff {h : HostState} (p : HostCfg) (r : Bool) (hh : HostOk h) :
    HostOk (hostPowerOff p r h).1 := hh.resolve (off := 0) rfl rfl

theorem hostOk_hostPowerOn {h : HostState} (r : Bool) (hh : HostOk h) : HostOk (hostPowerOn r h).1 :=
  hh.congr rfl rfl rfl

/-- Every operation of the Controller keeps its invariant. -/
theorem hostOk_hostOperate {h : HostState} (p : HostCfg) (o : HostOp) (hh : HostOk h) :
    HostOk (hostOperate p o h).1 := by
  cases o with
  | construct temp m f ton toff powered pin => exact hostOk_construct p _ temp m f ton toff powered pin
  | setTemperature t => exact hh.clamped t
  | setMode | setFan | modeCycle => exact hh.congr rfl rfl rfl
  | setTimerOn i => exact hostOk_changeTimerOn p _ _ hh
  | timerOnStep => exact hostOk_changeTimerOn p _ _ hh
  | setTimerOff | timerOffStep => exact hh.resolve rfl rfl
  | powerOn => exact hostOk_hostPowerOn _ hh
  | powerOff => exact hostOk_hostPowerOff p _ hh
  | powerToggle =>
    rw [hostOperate_powerToggle]
    split
    · exact hostOk_hostPowerOff p _ hh
    · exact hostOk_hostPowerOn _ hh
  | tempUp => exact hostOk_stepTemp p _ 1 hh
  | tempDown => exact hostOk_stepTemp p _ (-1) hh
  | fanCycle => exact hostOk_cycleFan p _ hh
  | swing | airDirection | cleanAir | ledDisplay | turbo => exact hh

/-- The block's own step does not touch the Controller's state (R22). -/
theorem blockStep_host {s t : State} (h : blockStep s = .next t) : t.host = s.host := by
  rcases blockStep_next h with ⟨-, rfl⟩ | ⟨-, -, rfl⟩ | ⟨-, -, w, i, -, -, he⟩ | ⟨-, -, -, rfl⟩
  · rcases transmitterStep_cases s with ⟨seg, q, -, ht⟩ | ⟨-, ht⟩
    · rw [ht, emitSegment_host]
    · rw [ht, clearBusy_host]
  · rfl
  · exact (exec_frame he).host
  · rfl

/-- Only an operation of the Controller writes its state. -/
theorem step_host {s t : State} (h : step s = .next t) :
    t.host = s.host ∨ ∃ o, t.host = (hostOperate Config.hostCfg o s.host).1 := by
  obtain ⟨-, ⟨a, rest, -, hmove⟩ | ⟨rest, -, hb⟩ | hb⟩ := step_next h
  · cases hmove with
    | operate o hf => exact .inr ⟨o, rfl⟩
    | issue w i _ hf hi he => exact .inl (exec_frame he).host
    | hold | awaited | returned | noted | enable | pend | reset => exact .inl rfl
  · exact .inl (blockStep_host (s := setInputs rest s) hb)
  · exact .inl (blockStep_host hb)

/-- Settles O54: a step leaves the Controller's state or runs one of its operations. -/
theorem stepsKeepTheControllersInvariants : Obligations.StepsKeepTheControllersInvariants := by
  unfold Obligations.StepsKeepTheControllersInvariants
  refine ⟨hostOk_initial, fun s t hs h => ?_⟩
  rcases step_host h with heq | ⟨o, heq⟩
  · rw [heq]
    exact hs
  · rw [heq]
    exact hostOk_hostOperate Config.hostCfg o hs

/-! ### What the operations issue -/

/-- The three things an operation can issue: nothing, the composed frame of the very state it stores, or a special
frame (R146, R147, R156). -/
inductive IssuesFrame : HostResult → Prop
  | silent (h : HostState) : IssuesFrame (h, [])
  | composed (h : HostState) (r : Bool) : IssuesFrame (h, composedFrame h r)
  | special (h : HostState) (sc : SpecialCmd) (r : Bool) : IssuesFrame (h, sendSpecial sc r)

theorem issuesFrame_composed_if (c : Prop) [Decidable c] (r : Bool) (h : HostState) :
    IssuesFrame (h, if c then composedFrame h r else []) := by
  split
  · exact .composed h r
  · exact .silent h

theorem issuesFrame_special_if (c : Prop) [Decidable c] (sc : SpecialCmd) (r : Bool) (h : HostState) :
    IssuesFrame (h, if c then sendSpecial sc r else []) := by
  split
  · exact .special h sc r
  · exact .silent h

theorem issuesFrame_mutated (r : Bool) (h : HostState) : IssuesFrame (mutated r h) := issuesFrame_composed_if _ r h

theorem issuesFrame_cycleFan (p : HostCfg) (r : Bool) (h : HostState) : IssuesFrame (cycleFan p r h) := by
  unfold cycleFan
  split
  · exact .silent h
  · exact issuesFrame_mutated r _

theorem issuesFrame_stepTemp (p : HostCfg) (r : Bool) (d : Int) (h : HostState) : IssuesFrame (stepTemp p r d h) := by
  unfold stepTemp
  split
  · exact .silent h
  · exact issuesFrame_mutated r _

theorem issuesFrame_implicitOff (p : HostCfg) (r : Bool) (h : HostState) : IssuesFrame (h, implicitOffCmds p r h) := by
  unfold implicitOffCmds
  split
  · exact .silent h
  · exact .composed h r
  · exact .special h .powerOff r

theorem issuesFrame_changeTimerOn (p : HostCfg) (r : Bool) (i : Fin 36) (h : HostState) :
    IssuesFrame (changeTimerOn p r i h) := by
  unfold changeTimerOn
  split
  · exact .composed _ r
  · split
    · exact issuesFrame_implicitOff p r _
    · exact issuesFrame_mutated r _

theorem issuesFrame_hostPowerOff (p : HostCfg) (r : Bool) (h : HostState) : IssuesFrame (hostPowerOff p r h) :=
  issuesFrame_special_if _ .powerOff r _

theorem issuesFrame_hostOperate (p : HostCfg) (o : HostOp) (h : HostState) : IssuesFrame (hostOperate p o h) := by
  cases o with
  | construct => exact issuesFrame_composed_if _ _ _
  | setTemperature | setMode | setFan | setTimerOff | modeCycle | timerOffStep => exact issuesFrame_mutated _ _
  | setTimerOn | timerOnStep => exact issuesFrame_changeTimerOn p _ _ h
  | powerOn => exact .composed _ _
  | powerOff => exact issuesFrame_hostPowerOff p _ h
  | powerToggle =>
    rw [hostOperate_powerToggle]
    split
    · exact issuesFrame_hostPowerOff p _ h
    · exact .composed _ _
  | tempUp | tempDown => exact issuesFrame_stepTemp p _ _ h
  | fanCycle => exact issuesFrame_cycleFan p _ h
  | swing | airDirection | cleanAir | turbo => exact issuesFrame_special_if _ _ _ h
  | ledDisplay => exact .special h _ _

/-- What O55 says of one command: well formed, no `TRANSMIT_NH`, and as a `SETSTATE` inside the encoder's tables. -/
def CommandInRange (i : Instr) : Prop :=
  WellFormed i ∧ (∀ len, i ≠ .transmitNh len) ∧
    (∀ temp mode fan ton toff, i = .setstate temp mode fan ton toff →
      17 ≤ temp.toNat ∧ temp.toNat ≤ 30 ∧ mode.toNat ≤ 4 ∧ fan.toNat ≤ 4 ∧ ton.toNat ≤ 35 ∧ toff.toNat ≤ 35 ∧
      (ton = toff → ton = 0))

theorem modeCode_le (m : Mode) : (modeCode m).toNat ≤ 4 := by cases m <;> decide

theorem fanSpeedCode_le (f : FanSpeed) : (fanSpeedCode f).toNat ≤ 4 := by cases f <;> decide

theorem legalSpecial_specialCode (sc : SpecialCmd) : legalSpecial (specialCode sc) := by cases sc <;> decide

/-- A timer index fits its field (R63). -/
theorem timerField_toNat (i : Fin 36) : (BitVec.ofNat 6 i.val).toNat = i.val := by
  rw [BitVec.toNat_ofNat]
  omega

theorem commandInRange_setStateOf {h : HostState} (hh : HostOk h) : CommandInRange (setStateOf h) := by
  obtain ⟨hlow, hhigh, htimers⟩ := hh
  refine ⟨rfl, nofun, fun temp mode fan ton toff heq => ?_⟩
  cases heq
  have htemp : (BitVec.ofNat 5 h.temperature).toNat = h.temperature := by
    rw [BitVec.toNat_ofNat]
    omega
  rw [htemp, timerField_toNat, timerField_toNat]
  refine ⟨hlow, hhigh, modeCode_le _, fanSpeedCode_le _, by omega, by omega, fun hsame => ?_⟩
  have hval : h.timerOn.val = h.timerOff.val := by
    rw [← timerField_toNat h.timerOn, hsame, timerField_toNat]
  rw [htimers (Fin.ext hval)]
  rfl

theorem commandInRange_encode : CommandInRange .encode := ⟨rfl, nofun, nofun⟩

theorem commandInRange_encodeSpecial (sc : SpecialCmd) : CommandInRange (.encodeSpecial (specialCode sc)) :=
  ⟨decide_eq_true (legalSpecial_specialCode sc), nofun, nofun⟩

theorem commandInRange_transmit (r : BitVec 1) : CommandInRange (.transmit r fullLength) := ⟨rfl, nofun, nofun⟩

/-- The frames issued beside a good state hold only commands in range. -/
theorem commandInRange_of_issuesFrame {res : HostResult} (hres : IssuesFrame res) (hh : HostOk res.1) :
    ∀ i ∈ res.2, CommandInRange i := by
  cases hres with
  | silent h => exact nofun
  | composed h r =>
    exact List.forall_mem_cons.mpr ⟨commandInRange_setStateOf hh, List.forall_mem_cons.mpr
      ⟨commandInRange_encode, List.forall_mem_singleton.mpr (commandInRange_transmit _)⟩⟩
  | special h sc r =>
    exact List.forall_mem_cons.mpr
      ⟨commandInRange_encodeSpecial sc, List.forall_mem_singleton.mpr (commandInRange_transmit _)⟩

/-- Settles O55: the frame issued is that of the state stored, which meets the invariant. -/
theorem controllerCommandsStayInRange : Obligations.ControllerCommandsStayInRange := by
  unfold Obligations.ControllerCommandsStayInRange
  intro p o h hh
  exact commandInRange_of_issuesFrame (issuesFrame_hostOperate p o h) (hostOk_hostOperate p o hh)

/-! ### Single operations -/

/-- In each of the four collisions the timers stored are the index asked for and its resolution. -/
theorem hostOperate_timers_of_collision {p : HostCfg} {h : HostState} {i : Fin 36} {o : HostOp} (hi : i ≠ 0)
    (ho : (o = .setTimerOff i.val ∧ h.timerOn = i) ∨
      (o = .timerOffStep ∧ h.timerOn = i ∧ h.timerOff.val + 1 = i.val) ∨
      (o = .setTimerOn i.val ∧ h.timerOff = i) ∨ (o = .timerOnStep ∧ h.timerOff = i ∧ h.timerOn.val + 1 = i.val)) :
    (hostOperate p o h).1.timerOn = i ∧ (hostOperate p o h).1.timerOff = resolveOff i i := by
  rcases ho with ⟨rfl, hon⟩ | ⟨rfl, hon, hstep⟩ | ⟨rfl, hoff⟩ | ⟨rfl, hoff, hstep⟩
  · rw [hostOperate, timerArg_val, changeTimerOff_fst, hon]
    exact ⟨rfl, rfl⟩
  · rw [hostOperate, nextTimer_of_succ hstep, changeTimerOff_fst, hon]
    exact ⟨rfl, rfl⟩
  · rw [hostOperate, timerArg_val, changeTimerOn_fst_of_ne_zero p _ h hi, hoff]
    exact ⟨rfl, rfl⟩
  · rw [hostOperate, nextTimer_of_succ hstep, changeTimerOn_fst_of_ne_zero p _ h hi, hoff]
    exact ⟨rfl, rfl⟩

/-- Settles O57, from the collision rule at the index asked for. -/
theorem timerCollisionMovesTheOffTimer : Obligations.TimerCollisionMovesTheOffTimer := by
  unfold Obligations.TimerCollisionMovesTheOffTimer
  intro p h i o hi ho h'
  obtain ⟨hon, hoff⟩ : h'.timerOn = i ∧ h'.timerOff = resolveOff i i := hostOperate_timers_of_collision hi ho
  rw [hon, hoff]
  exact ⟨resolveOff_self_max, resolveOff_self_below hi, rfl, fun heq => hi (resolveOff_eq_zero heq.symm)⟩

/-- Settles O56: the setter stores `clampTemp`. -/
theorem temperatureSetterClamps : Obligations.TemperatureSetterClamps := by
  unfold Obligations.TemperatureSetterClamps
  intro p h t stored
  exact ⟨clampTemp_of_lt, clampTemp_of_gt, clampTemp_of_mem⟩

/-- A toggle that is not LED-display sends on a powered unit only. -/
theorem toggle_eq (sc : SpecialCmd) (r : Bool) {o : HostOp} (h : HostState) (ho : o ≠ .ledDisplay) :
    toggle sc r h = (h, if h.powered = true ∨ o = .ledDisplay then sendSpecial sc r else []) := by
  simp only [toggle, ho, or_false]

/-- Settles O59, toggle by toggle. -/
theorem togglesSendOnlyWhenPowered : Obligations.TogglesSendOnlyWhenPowered := by
  unfold Obligations.TogglesSendOnlyWhenPowered
  intro p h o sc ho
  rcases ho with ⟨rfl, rfl⟩ | ⟨rfl, rfl⟩ | ⟨rfl, rfl⟩ | ⟨rfl, rfl⟩ | ⟨rfl, rfl⟩
  · exact toggle_eq .swing _ h (by decide)
  · exact toggle_eq .airDirection _ h (by decide)
  · exact toggle_eq .cleanAir _ h (by decide)
  · rw [if_pos (.inr rfl)]
    rfl
  · exact toggle_eq .turbo _ h (by decide)

theorem whenFree_of_free {s : State} (t : State) (hf : HostFree s) : whenFree t s = .next t := by
  obtain ⟨hb, hp, hr⟩ := hf
  simp [whenFree, hb, hostHeld_eq_false_of hp hr]

/-- Settles O60: neither act waits for the block. -/
theorem operationIssuesItsCommandsAndReturns : Obligations.OperationIssuesItsCommandsAndReturns := by
  unfold Obligations.OperationIssuesItsCommandsAndReturns
  intro s o rest hm hf
  refine ⟨fun hin => ?_, fun hin => ⟨hostReturns o s.host, ?_, ?_⟩⟩
  · rw [step_of_input hm hin, hostStep, hostOp, whenFree_of_free _ hf, hostWrites, List.append_assoc]
    rfl
  · rw [step_of_input hm hin, hostStep, hostRet, whenFree_of_free _ hf]
    rfl
  · rintro (rfl | rfl) <;> rfl

end Sys2Proof.Machine

/-! PROOFS. The ended run and the interrupt after a transmission (spec/60_exceptions.md R171, R172, R175, R176). -/

namespace Sys2Proof.Machine

/-! ### The ended run -/

/-- A refusal or a fault leaves its mark and nothing else (R171, R172). -/
theorem settle_markOutcome (s : State) (m : Mark) : settle s (markOutcome m) = { s with mark := some m } := by
  cases m with
  | refused r => rfl
  | faulted f => rfl

/-- A marked machine answers its mark (R175). -/
theorem step_of_mark {s : State} {m : Mark} (hm : s.mark = some m) : step s = markOutcome m := by
  simp [step, machineStep, hm]

theorem after_of_markOutcome {s : State} {m : Mark} (h : step s = markOutcome m) :
    after s = { s with mark := some m } := by
  rw [after, h, settle_markOutcome]

/-- The mark a step sets again is the one that stands, so the state is the same. -/
theorem after_of_mark {s : State} {m : Mark} (hm : s.mark = some m) : after s = s :=
  calc after s = { s with mark := some m } := after_of_markOutcome (step_of_mark hm)
    _ = s := by rw [← hm]

theorem runAfter_of_after_eq {s : State} (h : after s = s) (n : Nat) : runAfter n s = s := by
  induction n with
  | zero => rfl
  | succ n ih => rw [runAfter, h, ih]

/-- A step that answers a refusal or a fault sets its mark alone, and the marked machine stays as it is. -/
theorem run_ends_of_markOutcome {s : State} {m : Mark} (h : step s = markOutcome m) :
    after s = { s with mark := some m } ∧ step (after s) = markOutcome m ∧ ∀ n, runAfter n (after s) = after s := by
  have hafter : after s = { s with mark := some m } := after_of_markOutcome h
  have hmark : (after s).mark = some m := congrArg State.mark hafter
  exact ⟨hafter, step_of_mark hmark, runAfter_of_after_eq (after_of_mark hmark)⟩

/-- Settles O7: a refusal and a fault are each the answer of a mark. -/
theorem marksAreSetAloneAndKept : Obligations.MarksAreSetAloneAndKept := by
  unfold Obligations.MarksAreSetAloneAndKept
  intro s
  exact ⟨fun r h => run_ends_of_markOutcome (m := .refused r) h, fun f h => run_ends_of_markOutcome (m := .faulted f) h⟩

/-! ### The interrupt after a transmission -/

theorem blockStep_of_irqReady {s : State} (hr : irqReady s = true) : blockStep s = .next (takeIrq s) := by
  obtain ⟨-, hb, -⟩ := (irqReady_iff s).mp hr
  simp [blockStep, hb, hr]

theorem hostHeld_of_irqReady {s : State} (hr : irqReady s = true) : hostHeld s = true := by
  simp [hostHeld, hr]

/-- Of the acts that wait for the block, each waits behind a held command or an interrupt; so a host that waits goes on
waiting in a state with the same inputs in which one of these comes first. -/
theorem hostWaits_of_hostHeld {s t : State} (hw : hostWaits s = true) (hin : t.inputs = s.inputs)
    (hheld : hostHeld t = true) : hostWaits t = true := by
  unfold hostWaits at hw ⊢
  rw [hin]
  cases hs : s.inputs with
  | nil => rfl
  | cons a rest =>
    cases a with
    | pass | irq | reset => simp [hs] at hw
    | write | read => exact hheld
    | await | ret | setIE | op => simp [hheld]

/-- While the host waits, a pending interrupt it can take is what the step does (R176). -/
theorem step_of_waits_irqReady {s : State} (hm : s.mark = none) (hw : hostWaits s = true)
    (hr : irqReady s = true) : step s = .next (takeIrq s) := by
  rw [step_of_hostWaits hm hw, blockStep_of_irqReady hr]

/-- Settles O45: the completion step, after which the host still waits, now behind the interrupt. -/
theorem pendingInterruptIsTakenAfterCompletion : Obligations.PendingInterruptIsTakenAfterCompletion := by
  unfold Obligations.PendingInterruptIsTakenAfterCompletion
  intro s hm hw hb hq hie hpos
  have hready : irqReady (clearBusy s) = true := (irqReady_iff _).mpr ⟨hie, rfl, hpos⟩
  have hwaits : hostWaits (clearBusy s) = true := hostWaits_of_hostHeld hw rfl (hostHeld_of_irqReady hready)
  calc Sys2Proof.core.run 2 s
      = Sys2Proof.core.run 1 (clearBusy s) := run_succ 1 (step_of_waits_nil hm hw hb hq)
    _ = .next (takeIrq (clearBusy s)) := run_one (step_of_waits_irqReady hm hwaits hready)

end Sys2Proof.Machine

/-! PROOFS. A reset during a transmission (spec/70_reset_and_hazards.md R190, R191). -/

namespace Sys2Proof.Machine

/-- A reset waits for nothing: where it is the next input it is the step, whether or not a transmission is going on. -/
theorem step_of_reset {s : State} {rest : List HostAct} (hm : s.mark = none) (hin : s.inputs = .reset :: rest) :
    step s = .next (resetBlock (setInputs rest s)) := by
  rw [step_of_input hm hin, hostStep]

/-- A reset while `BUSY = 1` keeps the segments already emitted (R191). -/
theorem resetBlock_wave_of_busy {s : State} (hb : s.busy = true) : (resetBlock s).wave = s.wave := by
  rw [resetBlock_wave, if_pos hb]

theorem resetBlock_symbol (s : State) (k : Fin 48) : (resetBlock s).sym[k] = .unset := by simp

/-- Settles O49: the step is `resetBlock`, whose pin is idle by `outputIsIdleBetweenSteps`. -/
theorem resetEndsATransmission : Obligations.ResetEndsATransmission := by
  unfold Obligations.ResetEndsATransmission
  intro s rest hm hin hb
  have hwave : (resetBlock (setInputs rest s)).wave = s.wave := resetBlock_wave_of_busy (s := setInputs rest s) hb
  exact ⟨resetBlock (setInputs rest s), step_of_reset hm hin, resetBlock_txq _, resetBlock_busy _, resetBlock_busy _,
    outputIsIdleBetweenSteps _, hwave, resetBlock_stateReg _, resetBlock_nword _, resetBlock_iword _,
    resetBlock_symbol _, resetBlock_mark _, resetBlock_inputs _⟩

end Sys2Proof.Machine
